-- ==== Sys2Proof/Word.lean ====
section
/-! DEFINITION. The widths of the machine: bytes, words, parcels and register numbers (00_scope.md R7, 10_state.md R40,
R49, 20_memory.md R80, 30_encoding.md R120). -/
namespace Sys2Proof

/-- A byte of memory. -/
abbrev Byte := BitVec 8

/-- A 32-bit value: an x register, an address, the pc, a 32-bit instruction (R7: XLEN = 32, 32-bit byte addresses). -/
abbrev Word := BitVec 32

/-- A 16-bit half of the instruction stream (R21). -/
abbrev Parcel := BitVec 16

/-- The number of an integer register, x0 to x31 (R40). -/
abbrev XReg := BitVec 5

/-- The number of a floating-point register, f0 to f31 (R49). -/
abbrev FReg := BitVec 5

/-- The 3-bit register field of a compressed instruction; it names register 8 + field (R601). -/
abbrev CReg := BitVec 3

end Sys2Proof
end

