-- ==== Sys2Proof/Syntax.lean ====
section
/-! DEFINITION. The instruction set: one constructor of `Instr` for each of the 181 rows of spec/opcode_table.json
(30_encoding.md R146). Every operand field of the encoding is kept, the ignored ones too (FENCE, aq, rl, HINT
immediates), so that an instruction and its bits determine each other. Immediates are held in their natural bit order,
less the low bits the encoding fixes at zero. -/
namespace Sys2Proof

/-- The five rounding modes (R407, R408, R21). -/
inductive RoundingMode where
  | rne | rtz | rdn | rup | rmm
  deriving DecidableEq, Repr

/-- The rm field of an instruction that rounds: a static mode, or 111 "use frm" (R137, R407). The reserved values 101
and 110 have no constructor: they are illegal at decode. -/
inductive Rm where
  | mode (m : RoundingMode)
  | dyn
  deriving DecidableEq, Repr

/-- The `extension` column of the opcode table (R136). -/
inductive Ext where
  | i | m | a | zicsr | zifencei | f | d | q | c | cf | cd
  deriving DecidableEq, Repr

/-- An instruction, as syntax. -/
inductive Instr where
  /-- LUI (R205). `imm` is imm_U[31:12]. -/
  | lui (rd : XReg) (imm : BitVec 20)
  /-- AUIPC (R206). `imm` is imm_U[31:12]. -/
  | auipc (rd : XReg) (imm : BitVec 20)
  /-- JAL (R207). `off` is imm_J[20:1]. -/
  | jal (rd : XReg) (off : BitVec 20)
  /-- JALR (R208). -/
  | jalr (rd : XReg) (rs1 : XReg) (imm : BitVec 12)
  /-- BEQ (R209). `off` is imm_B[12:1]. -/
  | beq (rs1 : XReg) (rs2 : XReg) (off : BitVec 12)
  /-- BNE (R210). `off` is imm_B[12:1]. -/
  | bne (rs1 : XReg) (rs2 : XReg) (off : BitVec 12)
  /-- BLT (R211). `off` is imm_B[12:1]. -/
  | blt (rs1 : XReg) (rs2 : XReg) (off : BitVec 12)
  /-- BGE (R212). `off` is imm_B[12:1]. -/
  | bge (rs1 : XReg) (rs2 : XReg) (off : BitVec 12)
  /-- BLTU (R213). `off` is imm_B[12:1]. -/
  | bltu (rs1 : XReg) (rs2 : XReg) (off : BitVec 12)
  /-- BGEU (R214). `off` is imm_B[12:1]. -/
  | bgeu (rs1 : XReg) (rs2 : XReg) (off : BitVec 12)
  /-- LB (R215). -/
  | lb (rd : XReg) (rs1 : XReg) (imm : BitVec 12)
  /-- LH (R216). -/
  | lh (rd : XReg) (rs1 : XReg) (imm : BitVec 12)
  /-- LW (R217). -/
  | lw (rd : XReg) (rs1 : XReg) (imm : BitVec 12)
  /-- LBU (R218). -/
  | lbu (rd : XReg) (rs1 : XReg) (imm : BitVec 12)
  /-- LHU (R219). -/
  | lhu (rd : XReg) (rs1 : XReg) (imm : BitVec 12)
  /-- SB (R220). -/
  | sb (rs2 : XReg) (rs1 : XReg) (imm : BitVec 12)
  /-- SH (R221). -/
  | sh (rs2 : XReg) (rs1 : XReg) (imm : BitVec 12)
  /-- SW (R222). -/
  | sw (rs2 : XReg) (rs1 : XReg) (imm : BitVec 12)
  /-- ADDI (R223). -/
  | addi (rd : XReg) (rs1 : XReg) (imm : BitVec 12)
  /-- SLTI (R224). -/
  | slti (rd : XReg) (rs1 : XReg) (imm : BitVec 12)
  /-- SLTIU (R225). -/
  | sltiu (rd : XReg) (rs1 : XReg) (imm : BitVec 12)
  /-- XORI (R226). -/
  | xori (rd : XReg) (rs1 : XReg) (imm : BitVec 12)
  /-- ORI (R227). -/
  | ori (rd : XReg) (rs1 : XReg) (imm : BitVec 12)
  /-- ANDI (R228). -/
  | andi (rd : XReg) (rs1 : XReg) (imm : BitVec 12)
  /-- SLLI (R229). -/
  | slli (rd : XReg) (rs1 : XReg) (shamt : BitVec 5)
  /-- SRLI (R230). -/
  | srli (rd : XReg) (rs1 : XReg) (shamt : BitVec 5)
  /-- SRAI (R231). -/
  | srai (rd : XReg) (rs1 : XReg) (shamt : BitVec 5)
  /-- ADD (R232). -/
  | add (rd : XReg) (rs1 : XReg) (rs2 : XReg)
  /-- SUB (R233). -/
  | sub (rd : XReg) (rs1 : XReg) (rs2 : XReg)
  /-- SLL (R234). -/
  | sll (rd : XReg) (rs1 : XReg) (rs2 : XReg)
  /-- SLT (R235). -/
  | slt (rd : XReg) (rs1 : XReg) (rs2 : XReg)
  /-- SLTU (R236). -/
  | sltu (rd : XReg) (rs1 : XReg) (rs2 : XReg)
  /-- XOR (R237). -/
  | xor (rd : XReg) (rs1 : XReg) (rs2 : XReg)
  /-- SRL (R238). -/
  | srl (rd : XReg) (rs1 : XReg) (rs2 : XReg)
  /-- SRA (R239). -/
  | sra (rd : XReg) (rs1 : XReg) (rs2 : XReg)
  /-- OR (R240). -/
  | or (rd : XReg) (rs1 : XReg) (rs2 : XReg)
  /-- AND (R241). -/
  | and (rd : XReg) (rs1 : XReg) (rs2 : XReg)
  /-- FENCE (R242). -/
  | fence (fm : BitVec 4) (pred : BitVec 4) (succ : BitVec 4) (rs1 : XReg) (rd : XReg)
  /-- ECALL (R243). -/
  | ecall
  /-- EBREAK (R244). -/
  | ebreak
  /-- MUL (R301). -/
  | mul (rd : XReg) (rs1 : XReg) (rs2 : XReg)
  /-- MULH (R302). -/
  | mulh (rd : XReg) (rs1 : XReg) (rs2 : XReg)
  /-- MULHSU (R303). -/
  | mulhsu (rd : XReg) (rs1 : XReg) (rs2 : XReg)
  /-- MULHU (R304). -/
  | mulhu (rd : XReg) (rs1 : XReg) (rs2 : XReg)
  /-- DIV (R305). -/
  | div (rd : XReg) (rs1 : XReg) (rs2 : XReg)
  /-- DIVU (R306). -/
  | divu (rd : XReg) (rs1 : XReg) (rs2 : XReg)
  /-- REM (R307). -/
  | rem (rd : XReg) (rs1 : XReg) (rs2 : XReg)
  /-- REMU (R308). -/
  | remu (rd : XReg) (rs1 : XReg) (rs2 : XReg)
  /-- LR.W (R323). -/
  | lrW (aq : BitVec 1) (rl : BitVec 1) (rd : XReg) (rs1 : XReg)
  /-- SC.W (R324). -/
  | scW (aq : BitVec 1) (rl : BitVec 1) (rd : XReg) (rs1 : XReg) (rs2 : XReg)
  /-- AMOSWAP.W (R326). -/
  | amoswapW (aq : BitVec 1) (rl : BitVec 1) (rd : XReg) (rs1 : XReg) (rs2 : XReg)
  /-- AMOADD.W (R327). -/
  | amoaddW (aq : BitVec 1) (rl : BitVec 1) (rd : XReg) (rs1 : XReg) (rs2 : XReg)
  /-- AMOXOR.W (R328). -/
  | amoxorW (aq : BitVec 1) (rl : BitVec 1) (rd : XReg) (rs1 : XReg) (rs2 : XReg)
  /-- AMOAND.W (R329). -/
  | amoandW (aq : BitVec 1) (rl : BitVec 1) (rd : XReg) (rs1 : XReg) (rs2 : XReg)
  /-- AMOOR.W (R330). -/
  | amoorW (aq : BitVec 1) (rl : BitVec 1) (rd : XReg) (rs1 : XReg) (rs2 : XReg)
  /-- AMOMIN.W (R331). -/
  | amominW (aq : BitVec 1) (rl : BitVec 1) (rd : XReg) (rs1 : XReg) (rs2 : XReg)
  /-- AMOMAX.W (R332). -/
  | amomaxW (aq : BitVec 1) (rl : BitVec 1) (rd : XReg) (rs1 : XReg) (rs2 : XReg)
  /-- AMOMINU.W (R333). -/
  | amominuW (aq : BitVec 1) (rl : BitVec 1) (rd : XReg) (rs1 : XReg) (rs2 : XReg)
  /-- AMOMAXU.W (R334). -/
  | amomaxuW (aq : BitVec 1) (rl : BitVec 1) (rd : XReg) (rs1 : XReg) (rs2 : XReg)
  /-- CSRRW (R357). -/
  | csrrw (rd : XReg) (csr : BitVec 12) (rs1 : XReg)
  /-- CSRRS (R358). -/
  | csrrs (rd : XReg) (csr : BitVec 12) (rs1 : XReg)
  /-- CSRRC (R359). -/
  | csrrc (rd : XReg) (csr : BitVec 12) (rs1 : XReg)
  /-- CSRRWI (R360). -/
  | csrrwi (rd : XReg) (csr : BitVec 12) (uimm : BitVec 5)
  /-- CSRRSI (R361). -/
  | csrrsi (rd : XReg) (csr : BitVec 12) (uimm : BitVec 5)
  /-- CSRRCI (R362). -/
  | csrrci (rd : XReg) (csr : BitVec 12) (uimm : BitVec 5)
  /-- FENCE.I (R363). -/
  | fenceI (imm : BitVec 12) (rs1 : XReg) (rd : XReg)
  /-- FLW (R460). -/
  | flw (rd : FReg) (rs1 : XReg) (imm : BitVec 12)
  /-- FSW (R461). -/
  | fsw (rs2 : FReg) (rs1 : XReg) (imm : BitVec 12)
  /-- FMADD.S (R462). -/
  | fmaddS (rd : FReg) (rs1 : FReg) (rs2 : FReg) (rs3 : FReg) (rm : Rm)
  /-- FMSUB.S (R463). -/
  | fmsubS (rd : FReg) (rs1 : FReg) (rs2 : FReg) (rs3 : FReg) (rm : Rm)
  /-- FNMSUB.S (R464). -/
  | fnmsubS (rd : FReg) (rs1 : FReg) (rs2 : FReg) (rs3 : FReg) (rm : Rm)
  /-- FNMADD.S (R465). -/
  | fnmaddS (rd : FReg) (rs1 : FReg) (rs2 : FReg) (rs3 : FReg) (rm : Rm)
  /-- FADD.S (R466). -/
  | faddS (rd : FReg) (rs1 : FReg) (rs2 : FReg) (rm : Rm)
  /-- FSUB.S (R467). -/
  | fsubS (rd : FReg) (rs1 : FReg) (rs2 : FReg) (rm : Rm)
  /-- FMUL.S (R468). -/
  | fmulS (rd : FReg) (rs1 : FReg) (rs2 : FReg) (rm : Rm)
  /-- FDIV.S (R469). -/
  | fdivS (rd : FReg) (rs1 : FReg) (rs2 : FReg) (rm : Rm)
  /-- FSQRT.S (R470). -/
  | fsqrtS (rd : FReg) (rs1 : FReg) (rm : Rm)
  /-- FSGNJ.S (R471). -/
  | fsgnjS (rd : FReg) (rs1 : FReg) (rs2 : FReg)
  /-- FSGNJN.S (R472). -/
  | fsgnjnS (rd : FReg) (rs1 : FReg) (rs2 : FReg)
  /-- FSGNJX.S (R473). -/
  | fsgnjxS (rd : FReg) (rs1 : FReg) (rs2 : FReg)
  /-- FMIN.S (R474). -/
  | fminS (rd : FReg) (rs1 : FReg) (rs2 : FReg)
  /-- FMAX.S (R475). -/
  | fmaxS (rd : FReg) (rs1 : FReg) (rs2 : FReg)
  /-- FEQ.S (R479). -/
  | feqS (rd : XReg) (rs1 : FReg) (rs2 : FReg)
  /-- FLT.S (R480). -/
  | fltS (rd : XReg) (rs1 : FReg) (rs2 : FReg)
  /-- FLE.S (R481). -/
  | fleS (rd : XReg) (rs1 : FReg) (rs2 : FReg)
  /-- FCLASS.S (R482). -/
  | fclassS (rd : XReg) (rs1 : FReg)
  /-- FCVT.W.S (R476). -/
  | fcvtWS (rd : XReg) (rs1 : FReg) (rm : Rm)
  /-- FCVT.WU.S (R477). -/
  | fcvtWuS (rd : XReg) (rs1 : FReg) (rm : Rm)
  /-- FCVT.S.W (R483). -/
  | fcvtSW (rd : FReg) (rs1 : XReg) (rm : Rm)
  /-- FCVT.S.WU (R484). -/
  | fcvtSWu (rd : FReg) (rs1 : XReg) (rm : Rm)
  /-- FLD (R500). -/
  | fld (rd : FReg) (rs1 : XReg) (imm : BitVec 12)
  /-- FSD (R501). -/
  | fsd (rs2 : FReg) (rs1 : XReg) (imm : BitVec 12)
  /-- FMADD.D (R502). -/
  | fmaddD (rd : FReg) (rs1 : FReg) (rs2 : FReg) (rs3 : FReg) (rm : Rm)
  /-- FMSUB.D (R503). -/
  | fmsubD (rd : FReg) (rs1 : FReg) (rs2 : FReg) (rs3 : FReg) (rm : Rm)
  /-- FNMSUB.D (R504). -/
  | fnmsubD (rd : FReg) (rs1 : FReg) (rs2 : FReg) (rs3 : FReg) (rm : Rm)
  /-- FNMADD.D (R505). -/
  | fnmaddD (rd : FReg) (rs1 : FReg) (rs2 : FReg) (rs3 : FReg) (rm : Rm)
  /-- FADD.D (R506). -/
  | faddD (rd : FReg) (rs1 : FReg) (rs2 : FReg) (rm : Rm)
  /-- FSUB.D (R507). -/
  | fsubD (rd : FReg) (rs1 : FReg) (rs2 : FReg) (rm : Rm)
  /-- FMUL.D (R508). -/
  | fmulD (rd : FReg) (rs1 : FReg) (rs2 : FReg) (rm : Rm)
  /-- FDIV.D (R509). -/
  | fdivD (rd : FReg) (rs1 : FReg) (rs2 : FReg) (rm : Rm)
  /-- FSQRT.D (R510). -/
  | fsqrtD (rd : FReg) (rs1 : FReg) (rm : Rm)
  /-- FSGNJ.D (R511). -/
  | fsgnjD (rd : FReg) (rs1 : FReg) (rs2 : FReg)
  /-- FSGNJN.D (R512). -/
  | fsgnjnD (rd : FReg) (rs1 : FReg) (rs2 : FReg)
  /-- FSGNJX.D (R513). -/
  | fsgnjxD (rd : FReg) (rs1 : FReg) (rs2 : FReg)
  /-- FMIN.D (R514). -/
  | fminD (rd : FReg) (rs1 : FReg) (rs2 : FReg)
  /-- FMAX.D (R515). -/
  | fmaxD (rd : FReg) (rs1 : FReg) (rs2 : FReg)
  /-- FEQ.D (R518). -/
  | feqD (rd : XReg) (rs1 : FReg) (rs2 : FReg)
  /-- FLT.D (R519). -/
  | fltD (rd : XReg) (rs1 : FReg) (rs2 : FReg)
  /-- FLE.D (R520). -/
  | fleD (rd : XReg) (rs1 : FReg) (rs2 : FReg)
  /-- FCLASS.D (R521). -/
  | fclassD (rd : XReg) (rs1 : FReg)
  /-- FCVT.W.D (R522). -/
  | fcvtWD (rd : XReg) (rs1 : FReg) (rm : Rm)
  /-- FCVT.WU.D (R523). -/
  | fcvtWuD (rd : XReg) (rs1 : FReg) (rm : Rm)
  /-- FCVT.D.W (R524). -/
  | fcvtDW (rd : FReg) (rs1 : XReg) (rm : Rm)
  /-- FCVT.D.WU (R525). -/
  | fcvtDWu (rd : FReg) (rs1 : XReg) (rm : Rm)
  /-- FLQ (R540). -/
  | flq (rd : FReg) (rs1 : XReg) (imm : BitVec 12)
  /-- FSQ (R541). -/
  | fsq (rs2 : FReg) (rs1 : XReg) (imm : BitVec 12)
  /-- FMADD.Q (R542). -/
  | fmaddQ (rd : FReg) (rs1 : FReg) (rs2 : FReg) (rs3 : FReg) (rm : Rm)
  /-- FMSUB.Q (R543). -/
  | fmsubQ (rd : FReg) (rs1 : FReg) (rs2 : FReg) (rs3 : FReg) (rm : Rm)
  /-- FNMSUB.Q (R544). -/
  | fnmsubQ (rd : FReg) (rs1 : FReg) (rs2 : FReg) (rs3 : FReg) (rm : Rm)
  /-- FNMADD.Q (R545). -/
  | fnmaddQ (rd : FReg) (rs1 : FReg) (rs2 : FReg) (rs3 : FReg) (rm : Rm)
  /-- FADD.Q (R546). -/
  | faddQ (rd : FReg) (rs1 : FReg) (rs2 : FReg) (rm : Rm)
  /-- FSUB.Q (R547). -/
  | fsubQ (rd : FReg) (rs1 : FReg) (rs2 : FReg) (rm : Rm)
  /-- FMUL.Q (R548). -/
  | fmulQ (rd : FReg) (rs1 : FReg) (rs2 : FReg) (rm : Rm)
  /-- FDIV.Q (R549). -/
  | fdivQ (rd : FReg) (rs1 : FReg) (rs2 : FReg) (rm : Rm)
  /-- FSQRT.Q (R550). -/
  | fsqrtQ (rd : FReg) (rs1 : FReg) (rm : Rm)
  /-- FSGNJ.Q (R551). -/
  | fsgnjQ (rd : FReg) (rs1 : FReg) (rs2 : FReg)
  /-- FSGNJN.Q (R552). -/
  | fsgnjnQ (rd : FReg) (rs1 : FReg) (rs2 : FReg)
  /-- FSGNJX.Q (R553). -/
  | fsgnjxQ (rd : FReg) (rs1 : FReg) (rs2 : FReg)
  /-- FMIN.Q (R554). -/
  | fminQ (rd : FReg) (rs1 : FReg) (rs2 : FReg)
  /-- FMAX.Q (R555). -/
  | fmaxQ (rd : FReg) (rs1 : FReg) (rs2 : FReg)
  /-- FEQ.Q (R560). -/
  | feqQ (rd : XReg) (rs1 : FReg) (rs2 : FReg)
  /-- FLT.Q (R561). -/
  | fltQ (rd : XReg) (rs1 : FReg) (rs2 : FReg)
  /-- FLE.Q (R562). -/
  | fleQ (rd : XReg) (rs1 : FReg) (rs2 : FReg)
  /-- FCLASS.Q (R563). -/
  | fclassQ (rd : XReg) (rs1 : FReg)
  /-- FCVT.W.Q (R564). -/
  | fcvtWQ (rd : XReg) (rs1 : FReg) (rm : Rm)
  /-- FCVT.WU.Q (R565). -/
  | fcvtWuQ (rd : XReg) (rs1 : FReg) (rm : Rm)
  /-- FCVT.Q.W (R566). -/
  | fcvtQW (rd : FReg) (rs1 : XReg) (rm : Rm)
  /-- FCVT.Q.WU (R567). -/
  | fcvtQWu (rd : FReg) (rs1 : XReg) (rm : Rm)
  /-- FMV.X.W (R478). -/
  | fmvXW (rd : XReg) (rs1 : FReg)
  /-- FMV.W.X (R485). -/
  | fmvWX (rd : FReg) (rs1 : XReg)
  /-- FCVT.S.D (R516). -/
  | fcvtSD (rd : FReg) (rs1 : FReg) (rm : Rm)
  /-- FCVT.D.S (R517). -/
  | fcvtDS (rd : FReg) (rs1 : FReg) (rm : Rm)
  /-- FCVT.S.Q (R556). -/
  | fcvtSQ (rd : FReg) (rs1 : FReg) (rm : Rm)
  /-- FCVT.Q.S (R557). -/
  | fcvtQS (rd : FReg) (rs1 : FReg) (rm : Rm)
  /-- FCVT.D.Q (R558). -/
  | fcvtDQ (rd : FReg) (rs1 : FReg) (rm : Rm)
  /-- FCVT.Q.D (R559). -/
  | fcvtQD (rd : FReg) (rs1 : FReg) (rm : Rm)
  /-- C.ADDI4SPN (R605). `imm` is nzuimm[9:2]. -/
  | cAddi4spn (rd : CReg) (imm : BitVec 8)
  /-- C.FLD (R606). `imm` is uimm[7:3]. -/
  | cFld (rd : CReg) (rs1 : CReg) (imm : BitVec 5)
  /-- C.LW (R607). `imm` is uimm[6:2]. -/
  | cLw (rd : CReg) (rs1 : CReg) (imm : BitVec 5)
  /-- C.FLW (R608). `imm` is uimm[6:2]. -/
  | cFlw (rd : CReg) (rs1 : CReg) (imm : BitVec 5)
  /-- C.FSD (R609). `imm` is uimm[7:3]. -/
  | cFsd (rs2 : CReg) (rs1 : CReg) (imm : BitVec 5)
  /-- C.SW (R610). `imm` is uimm[6:2]. -/
  | cSw (rs2 : CReg) (rs1 : CReg) (imm : BitVec 5)
  /-- C.FSW (R611). `imm` is uimm[6:2]. -/
  | cFsw (rs2 : CReg) (rs1 : CReg) (imm : BitVec 5)
  /-- C.NOP (R612). -/
  | cNop (imm : BitVec 6)
  /-- C.ADDI (R613). -/
  | cAddi (rd : XReg) (imm : BitVec 6)
  /-- C.JAL (R614). `off` is offset[11:1]. -/
  | cJal (off : BitVec 11)
  /-- C.LI (R615). -/
  | cLi (rd : XReg) (imm : BitVec 6)
  /-- C.ADDI16SP (R616). `imm` is nzimm[9:4]. -/
  | cAddi16sp (imm : BitVec 6)
  /-- C.LUI (R617). `imm` is nzimm[17:12]. -/
  | cLui (rd : XReg) (imm : BitVec 6)
  /-- C.SRLI (R618). -/
  | cSrli (rd : CReg) (shamt : BitVec 5)
  /-- C.SRAI (R619). -/
  | cSrai (rd : CReg) (shamt : BitVec 5)
  /-- C.ANDI (R620). -/
  | cAndi (rd : CReg) (imm : BitVec 6)
  /-- C.SUB (R621). -/
  | cSub (rd : CReg) (rs2 : CReg)
  /-- C.XOR (R622). -/
  | cXor (rd : CReg) (rs2 : CReg)
  /-- C.OR (R623). -/
  | cOr (rd : CReg) (rs2 : CReg)
  /-- C.AND (R624). -/
  | cAnd (rd : CReg) (rs2 : CReg)
  /-- C.J (R625). `off` is offset[11:1]. -/
  | cJ (off : BitVec 11)
  /-- C.BEQZ (R626). `off` is offset[8:1]. -/
  | cBeqz (rs1 : CReg) (off : BitVec 8)
  /-- C.BNEZ (R627). `off` is offset[8:1]. -/
  | cBnez (rs1 : CReg) (off : BitVec 8)
  /-- C.SLLI (R628). -/
  | cSlli (rd : XReg) (shamt : BitVec 5)
  /-- C.FLDSP (R629). `imm` is uimm[8:3]. -/
  | cFldsp (rd : FReg) (imm : BitVec 6)
  /-- C.LWSP (R630). `imm` is uimm[7:2]. -/
  | cLwsp (rd : XReg) (imm : BitVec 6)
  /-- C.FLWSP (R631). `imm` is uimm[7:2]. -/
  | cFlwsp (rd : FReg) (imm : BitVec 6)
  /-- C.JR (R632). -/
  | cJr (rs1 : XReg)
  /-- C.MV (R633). -/
  | cMv (rd : XReg) (rs2 : XReg)
  /-- C.EBREAK (R634). -/
  | cEbreak
  /-- C.JALR (R635). -/
  | cJalr (rs1 : XReg)
  /-- C.ADD (R636). -/
  | cAdd (rd : XReg) (rs2 : XReg)
  /-- C.FSDSP (R637). `imm` is uimm[8:3]. -/
  | cFsdsp (rs2 : FReg) (imm : BitVec 6)
  /-- C.SWSP (R638). `imm` is uimm[7:2]. -/
  | cSwsp (rs2 : XReg) (imm : BitVec 6)
  /-- C.FSWSP (R639). `imm` is uimm[7:2]. -/
  | cFswsp (rs2 : FReg) (imm : BitVec 6)
  deriving DecidableEq, Repr

end Sys2Proof
end

