-- ==== Sys2Proof/Config.lean ====
section
/-! DEFINITION. The parameters of the hardware (00_scope.md R7): what is fixed when the core is instantiated, what the
environment chooses per step, and the OPEN parameters of 92_eei_decisions.md, which are opaque constants here, so that no
proof can see their value. -/
namespace Sys2Proof

/-- FLEN, the width of an f register (R7, R49, R802). -/
inductive Flen where
  | none | w32 | w64 | w128
  deriving DecidableEq, Repr

/-- FLEN in bits; 0 when the core has no FP register file (R49). -/
def Flen.bits : Flen → Nat
  | .none => 0
  | .w32 => 32
  | .w64 => 64
  | .w128 => 128

/-- The configuration, fixed for the life of an instance (R56, R802). -/
structure Config where
  flen : Flen
  cImplemented : Bool
  deriving DecidableEq, Repr

/-- The extension gates `Enabled(e)`, e in M, A, F, D, Q, C: the environment's answers for one step (R15, R702). -/
structure Gates where
  m : Bool
  a : Bool
  f : Bool
  d : Bool
  q : Bool
  c : Bool
  deriving DecidableEq, Repr

/-- The three FP formats, single, double and quad (R402). -/
inductive Fmt where
  | s | d | q
  deriving DecidableEq, Repr

/-- What the environment answers to `SqrtMode(w)` (R18). -/
inductive SqrtMode where
  | fast | accurate | illegal
  deriving DecidableEq, Repr

/-- The environment's usual `SqrtMode` answer for each width (R18). -/
structure SqrtModes where
  s : SqrtMode
  d : SqrtMode
  q : SqrtMode
  deriving DecidableEq, Repr

/-- The OPEN parameter `CostCategory` (R17, R706, 92 D28), as a number. DESIGN CHOICE (log 8): free. -/
opaque Config.costCategory : Instr → Nat

/-- The OPEN parameter `ecall_code` (R711, 92 D7): 0, 1 and 2 stand for the codes 8, 9 and 11. DESIGN CHOICE (log 9):
free, safe. -/
opaque Config.ecallCode : Fin 3

/-- Fast-mode FSQRT of a finite positive operand (R421, 92 D20): the result is this many representable values, less two,
above the accurate one, so at most two away. The operand is the format's bit pattern, zero-extended. DESIGN CHOICE
(log 7): free within the bound, safe. -/
opaque Config.fastSqrtOffset : Fmt → BitVec 128 → RoundingMode → Fin 5

/-- Fast-mode FSQRT of every other operand: the spec states no result (R421, 92 D20, 93 U9). DESIGN CHOICE (log 7): free,
safe. -/
opaque Config.fastSqrtSpecial : Fmt → BitVec 128 → RoundingMode → BitVec 128

/-- The flags a fast-mode FSQRT raises: the spec states none (R421, 92 D20, 93 U9). DESIGN CHOICE (log 7): free, safe. -/
opaque Config.fastSqrtFlags : Fmt → BitVec 128 → RoundingMode → BitVec 5

end Sys2Proof
end

