-- ==== Sys2Proof/WellFormed.lean ====
section
/-! DEFINITION. Well-formed instructions: the constraints column of spec/opcode_table.json. The field widths are in the
types of `Instr`; what is left are the register and immediate values that a compressed form reserves or gives to another
row (48_compressed.md R604 to R639). -/
namespace Sys2Proof

/-- The constraints of the instruction's row hold (R604, R605, R613, R616, R617, R630, R632, R633, R635, R636). -/
def Instr.wf : Instr → Bool
  | .lui _ _ => true
  | .auipc _ _ => true
  | .jal _ _ => true
  | .jalr _ _ _ => true
  | .beq _ _ _ => true
  | .bne _ _ _ => true
  | .blt _ _ _ => true
  | .bge _ _ _ => true
  | .bltu _ _ _ => true
  | .bgeu _ _ _ => true
  | .lb _ _ _ => true
  | .lh _ _ _ => true
  | .lw _ _ _ => true
  | .lbu _ _ _ => true
  | .lhu _ _ _ => true
  | .sb _ _ _ => true
  | .sh _ _ _ => true
  | .sw _ _ _ => true
  | .addi _ _ _ => true
  | .slti _ _ _ => true
  | .sltiu _ _ _ => true
  | .xori _ _ _ => true
  | .ori _ _ _ => true
  | .andi _ _ _ => true
  | .slli _ _ _ => true
  | .srli _ _ _ => true
  | .srai _ _ _ => true
  | .add _ _ _ => true
  | .sub _ _ _ => true
  | .sll _ _ _ => true
  | .slt _ _ _ => true
  | .sltu _ _ _ => true
  | .xor _ _ _ => true
  | .srl _ _ _ => true
  | .sra _ _ _ => true
  | .or _ _ _ => true
  | .and _ _ _ => true
  | .fence _ _ _ _ _ => true
  | .ecall => true
  | .ebreak => true
  | .mul _ _ _ => true
  | .mulh _ _ _ => true
  | .mulhsu _ _ _ => true
  | .mulhu _ _ _ => true
  | .div _ _ _ => true
  | .divu _ _ _ => true
  | .rem _ _ _ => true
  | .remu _ _ _ => true
  | .lrW _ _ _ _ => true
  | .scW _ _ _ _ _ => true
  | .amoswapW _ _ _ _ _ => true
  | .amoaddW _ _ _ _ _ => true
  | .amoxorW _ _ _ _ _ => true
  | .amoandW _ _ _ _ _ => true
  | .amoorW _ _ _ _ _ => true
  | .amominW _ _ _ _ _ => true
  | .amomaxW _ _ _ _ _ => true
  | .amominuW _ _ _ _ _ => true
  | .amomaxuW _ _ _ _ _ => true
  | .csrrw _ _ _ => true
  | .csrrs _ _ _ => true
  | .csrrc _ _ _ => true
  | .csrrwi _ _ _ => true
  | .csrrsi _ _ _ => true
  | .csrrci _ _ _ => true
  | .fenceI _ _ _ => true
  | .flw _ _ _ => true
  | .fsw _ _ _ => true
  | .fmaddS _ _ _ _ _ => true
  | .fmsubS _ _ _ _ _ => true
  | .fnmsubS _ _ _ _ _ => true
  | .fnmaddS _ _ _ _ _ => true
  | .faddS _ _ _ _ => true
  | .fsubS _ _ _ _ => true
  | .fmulS _ _ _ _ => true
  | .fdivS _ _ _ _ => true
  | .fsqrtS _ _ _ => true
  | .fsgnjS _ _ _ => true
  | .fsgnjnS _ _ _ => true
  | .fsgnjxS _ _ _ => true
  | .fminS _ _ _ => true
  | .fmaxS _ _ _ => true
  | .feqS _ _ _ => true
  | .fltS _ _ _ => true
  | .fleS _ _ _ => true
  | .fclassS _ _ => true
  | .fcvtWS _ _ _ => true
  | .fcvtWuS _ _ _ => true
  | .fcvtSW _ _ _ => true
  | .fcvtSWu _ _ _ => true
  | .fld _ _ _ => true
  | .fsd _ _ _ => true
  | .fmaddD _ _ _ _ _ => true
  | .fmsubD _ _ _ _ _ => true
  | .fnmsubD _ _ _ _ _ => true
  | .fnmaddD _ _ _ _ _ => true
  | .faddD _ _ _ _ => true
  | .fsubD _ _ _ _ => true
  | .fmulD _ _ _ _ => true
  | .fdivD _ _ _ _ => true
  | .fsqrtD _ _ _ => true
  | .fsgnjD _ _ _ => true
  | .fsgnjnD _ _ _ => true
  | .fsgnjxD _ _ _ => true
  | .fminD _ _ _ => true
  | .fmaxD _ _ _ => true
  | .feqD _ _ _ => true
  | .fltD _ _ _ => true
  | .fleD _ _ _ => true
  | .fclassD _ _ => true
  | .fcvtWD _ _ _ => true
  | .fcvtWuD _ _ _ => true
  | .fcvtDW _ _ _ => true
  | .fcvtDWu _ _ _ => true
  | .flq _ _ _ => true
  | .fsq _ _ _ => true
  | .fmaddQ _ _ _ _ _ => true
  | .fmsubQ _ _ _ _ _ => true
  | .fnmsubQ _ _ _ _ _ => true
  | .fnmaddQ _ _ _ _ _ => true
  | .faddQ _ _ _ _ => true
  | .fsubQ _ _ _ _ => true
  | .fmulQ _ _ _ _ => true
  | .fdivQ _ _ _ _ => true
  | .fsqrtQ _ _ _ => true
  | .fsgnjQ _ _ _ => true
  | .fsgnjnQ _ _ _ => true
  | .fsgnjxQ _ _ _ => true
  | .fminQ _ _ _ => true
  | .fmaxQ _ _ _ => true
  | .feqQ _ _ _ => true
  | .fltQ _ _ _ => true
  | .fleQ _ _ _ => true
  | .fclassQ _ _ => true
  | .fcvtWQ _ _ _ => true
  | .fcvtWuQ _ _ _ => true
  | .fcvtQW _ _ _ => true
  | .fcvtQWu _ _ _ => true
  | .fmvXW _ _ => true
  | .fmvWX _ _ => true
  | .fcvtSD _ _ _ => true
  | .fcvtDS _ _ _ => true
  | .fcvtSQ _ _ _ => true
  | .fcvtQS _ _ _ => true
  | .fcvtDQ _ _ _ => true
  | .fcvtQD _ _ _ => true
  | .cAddi4spn _ imm => decide (imm ≠ 0#8)
  | .cFld _ _ _ => true
  | .cLw _ _ _ => true
  | .cFlw _ _ _ => true
  | .cFsd _ _ _ => true
  | .cSw _ _ _ => true
  | .cFsw _ _ _ => true
  | .cNop _ => true
  | .cAddi rd _ => decide (rd ≠ 0#5)
  | .cJal _ => true
  | .cLi _ _ => true
  | .cAddi16sp imm => decide (imm ≠ 0#6)
  | .cLui rd imm => decide (rd ≠ 2#5 ∧ imm ≠ 0#6)
  | .cSrli _ _ => true
  | .cSrai _ _ => true
  | .cAndi _ _ => true
  | .cSub _ _ => true
  | .cXor _ _ => true
  | .cOr _ _ => true
  | .cAnd _ _ => true
  | .cJ _ => true
  | .cBeqz _ _ => true
  | .cBnez _ _ => true
  | .cSlli _ _ => true
  | .cFldsp _ _ => true
  | .cLwsp rd _ => decide (rd ≠ 0#5)
  | .cFlwsp _ _ => true
  | .cJr rs1 => decide (rs1 ≠ 0#5)
  | .cMv _ rs2 => decide (rs2 ≠ 0#5)
  | .cEbreak => true
  | .cJalr rs1 => decide (rs1 ≠ 0#5)
  | .cAdd _ rs2 => decide (rs2 ≠ 0#5)
  | .cFsdsp _ _ => true
  | .cSwsp _ _ => true
  | .cFswsp _ _ => true

end Sys2Proof
end

