-- ==== Sys2Proof/Decode.lean ====
section
/-! DEFINITION. The decoder, total on any bytes and rejecting by name (30_encoding.md, 48_compressed.md), the gating of
extensions (R136, R145), and after them the encoder, written from the same tables. -/
namespace Sys2Proof

/-- Why bits are not an instruction. Every reason but `truncated` is the spec's `Illegal` (R135, R146). -/
inductive Reject where
  /-- Fewer bytes than the instruction's length; never seen by a fetch, which reads whole parcels. -/
  | truncated
  /-- No row of the opcode table (R133, R134, R138, R139, R140, R142, R144, R642). -/
  | unallocated
  /-- rm = 101 or 110 (R137). -/
  | reservedRm
  /-- A reserved compressed encoding (R604). -/
  | reservedCompressed
  /-- The instruction's extension is off at this step, or FLEN or C_IMPLEMENTED does not allow it (R136, R145). -/
  | notEnabled
  deriving DecidableEq, Repr

/-! ### Fields of a 32-bit word (R123, R124, R132) -/

namespace Fields

def opcode (w : Word) : BitVec 7 := w.extractLsb' 0 7
def rd (w : Word) : BitVec 5 := w.extractLsb' 7 5
def funct3 (w : Word) : BitVec 3 := w.extractLsb' 12 3
def rs1 (w : Word) : BitVec 5 := w.extractLsb' 15 5
def rs2 (w : Word) : BitVec 5 := w.extractLsb' 20 5
def funct7 (w : Word) : BitVec 7 := w.extractLsb' 25 7
/-- funct5 in R-amo and R-fp, rs3 in R4. -/
def funct5 (w : Word) : BitVec 5 := w.extractLsb' 27 5
def fmt (w : Word) : BitVec 2 := w.extractLsb' 25 2
def aq (w : Word) : BitVec 1 := w.extractLsb' 26 1
def rl (w : Word) : BitVec 1 := w.extractLsb' 25 1
def fm (w : Word) : BitVec 4 := w.extractLsb' 28 4
def pred (w : Word) : BitVec 4 := w.extractLsb' 24 4
def succ (w : Word) : BitVec 4 := w.extractLsb' 20 4
/-- imm_I[11:0] (R126); the csr number of I-csr and I-csri (R132). -/
def immI (w : Word) : BitVec 12 := w.extractLsb' 20 12
/-- imm_S[11:0] (R127). -/
def immS (w : Word) : BitVec 12 := w.extractLsb' 25 7 ++ w.extractLsb' 7 5
/-- imm_B[12:1] (R128). -/
def offB (w : Word) : BitVec 12 :=
  w.extractLsb' 31 1 ++ w.extractLsb' 7 1 ++ w.extractLsb' 25 6 ++ w.extractLsb' 8 4
/-- imm_U[31:12] (R129). -/
def immU (w : Word) : BitVec 20 := w.extractLsb' 12 20
/-- imm_J[20:1] (R130). -/
def offJ (w : Word) : BitVec 20 :=
  w.extractLsb' 31 1 ++ w.extractLsb' 12 8 ++ w.extractLsb' 20 1 ++ w.extractLsb' 21 10

/-! ### Fields of a 16-bit parcel (48_compressed.md) -/

def op (p : Parcel) : BitVec 2 := p.extractLsb' 0 2
def cFunct3 (p : Parcel) : BitVec 3 := p.extractLsb' 13 3
def cFunct4 (p : Parcel) : BitVec 4 := p.extractLsb' 12 4
def cBit12 (p : Parcel) : BitVec 1 := p.extractLsb' 12 1
/-- rd or rs1 of CI and CR. -/
def cRd (p : Parcel) : BitVec 5 := p.extractLsb' 7 5
/-- rs2 of CR and CSS. -/
def cRs2 (p : Parcel) : BitVec 5 := p.extractLsb' 2 5
/-- rs1' of CL, CS and CB; rd' of CA and CB. -/
def cRs1' (p : Parcel) : BitVec 3 := p.extractLsb' 7 3
/-- rd' of CIW and CL; rs2' of CS and CA. -/
def cRs2' (p : Parcel) : BitVec 3 := p.extractLsb' 2 3
/-- Bits 11:10 of the CB arithmetic group. -/
def cFunct2 (p : Parcel) : BitVec 2 := p.extractLsb' 10 2
/-- Bits 6:5 of CA. -/
def cFunct2a (p : Parcel) : BitVec 2 := p.extractLsb' 5 2
/-- nzuimm[9:2] of C.ADDI4SPN: bits 12:5 hold [5:4|9:6|2|3] (R605). -/
def immCIW (p : Parcel) : BitVec 8 :=
  p.extractLsb' 7 4 ++ p.extractLsb' 11 2 ++ p.extractLsb' 5 1 ++ p.extractLsb' 6 1
/-- uimm[7:3] of C.FLD and C.FSD: bits 12:10 hold [5:3], bits 6:5 hold [7:6] (R606). -/
def immCLD (p : Parcel) : BitVec 5 := p.extractLsb' 5 2 ++ p.extractLsb' 10 3
/-- uimm[6:2] of C.LW and the like: bits 12:10 hold [5:3], bit 6 [2], bit 5 [6] (R607). -/
def immCLW (p : Parcel) : BitVec 5 := p.extractLsb' 5 1 ++ p.extractLsb' 10 3 ++ p.extractLsb' 6 1
/-- imm[5:0] of CI and of C.ANDI: bit 12 holds [5], bits 6:2 hold [4:0] (R613, R620). -/
def immCI (p : Parcel) : BitVec 6 := p.extractLsb' 12 1 ++ p.extractLsb' 2 5
/-- nzimm[9:4] of C.ADDI16SP: bit 12 holds [9], bits 6:2 hold [4|6|8:7|5] (R616). -/
def immCI16SP (p : Parcel) : BitVec 6 :=
  p.extractLsb' 12 1 ++ p.extractLsb' 3 2 ++ p.extractLsb' 5 1 ++ p.extractLsb' 2 1 ++ p.extractLsb' 6 1
/-- offset[11:1] of CJ: bits 12:2 hold [11|4|9:8|10|6|7|3:1|5] (R614). -/
def offCJ (p : Parcel) : BitVec 11 :=
  p.extractLsb' 12 1 ++ p.extractLsb' 8 1 ++ p.extractLsb' 9 2 ++ p.extractLsb' 6 1 ++ p.extractLsb' 7 1 ++
    p.extractLsb' 2 1 ++ p.extractLsb' 11 1 ++ p.extractLsb' 3 3
/-- offset[8:1] of CB: bits 12:10 hold [8|4:3], bits 6:2 hold [7:6|2:1|5] (R626). -/
def offCB (p : Parcel) : BitVec 8 :=
  p.extractLsb' 12 1 ++ p.extractLsb' 5 2 ++ p.extractLsb' 2 1 ++ p.extractLsb' 10 2 ++ p.extractLsb' 3 2
/-- uimm[8:3] of C.FLDSP: bit 12 holds [5], bits 6:2 hold [4:3|8:6] (R629). -/
def immCIDSP (p : Parcel) : BitVec 6 := p.extractLsb' 2 3 ++ p.extractLsb' 12 1 ++ p.extractLsb' 5 2
/-- uimm[7:2] of C.LWSP and C.FLWSP: bit 12 holds [5], bits 6:2 hold [4:2|7:6] (R630). -/
def immCIWSP (p : Parcel) : BitVec 6 := p.extractLsb' 2 2 ++ p.extractLsb' 12 1 ++ p.extractLsb' 4 3
/-- uimm[8:3] of C.FSDSP: bits 12:7 hold [5:3|8:6] (R637). -/
def immCSSD (p : Parcel) : BitVec 6 := p.extractLsb' 7 3 ++ p.extractLsb' 10 3
/-- uimm[7:2] of C.SWSP and C.FSWSP: bits 12:7 hold [5:2|7:6] (R638). -/
def immCSSW (p : Parcel) : BitVec 6 := p.extractLsb' 7 2 ++ p.extractLsb' 9 4

end Fields

open Fields

/-! ### Decoding 32-bit words -/

/-- The rm field (R55, R137): 101 and 110 are illegal, 111 selects frm. -/
def decodeRm : BitVec 3 → Except Reject Rm
  | 0b000#3 => .ok (.mode .rne)
  | 0b001#3 => .ok (.mode .rtz)
  | 0b010#3 => .ok (.mode .rdn)
  | 0b011#3 => .ok (.mode .rup)
  | 0b100#3 => .ok (.mode .rmm)
  | 0b111#3 => .ok .dyn
  | _ => .error .reservedRm

/-- An instruction with an rm field (R137). -/
def withRm (w : Word) (k : Rm → Except Reject Instr) : Except Reject Instr :=
  match decodeRm (funct3 w) with
  | .ok rm => k rm
  | .error e => .error e

/-- The instruction of the word's fmt: 00 single, 01 double, 11 quad; 10 is illegal (R144). -/
def byFmt (w : Word) (s d q : Instr) : Except Reject Instr :=
  match fmt w with
  | 0b00#2 => .ok s
  | 0b01#2 => .ok d
  | 0b11#2 => .ok q
  | _ => .error .unallocated

/-- LOAD (R133). -/
def decodeLoad (w : Word) : Except Reject Instr :=
  match funct3 w with
  | 0b000#3 => .ok (.lb (rd w) (rs1 w) (immI w))
  | 0b001#3 => .ok (.lh (rd w) (rs1 w) (immI w))
  | 0b010#3 => .ok (.lw (rd w) (rs1 w) (immI w))
  | 0b100#3 => .ok (.lbu (rd w) (rs1 w) (immI w))
  | 0b101#3 => .ok (.lhu (rd w) (rs1 w) (immI w))
  | _ => .error .unallocated

/-- LOAD-FP (R133, R144). -/
def decodeLoadFp (w : Word) : Except Reject Instr :=
  match funct3 w with
  | 0b010#3 => .ok (.flw (rd w) (rs1 w) (immI w))
  | 0b011#3 => .ok (.fld (rd w) (rs1 w) (immI w))
  | 0b100#3 => .ok (.flq (rd w) (rs1 w) (immI w))
  | _ => .error .unallocated

/-- MISC-MEM (R133, R143). -/
def decodeMiscMem (w : Word) : Except Reject Instr :=
  match funct3 w with
  | 0b000#3 => .ok (.fence (fm w) (pred w) (succ w) (rs1 w) (rd w))
  | 0b001#3 => .ok (.fenceI (immI w) (rs1 w) (rd w))
  | _ => .error .unallocated

/-- OP-IMM (R133, R142). -/
def decodeOpImm (w : Word) : Except Reject Instr :=
  match funct3 w with
  | 0b000#3 => .ok (.addi (rd w) (rs1 w) (immI w))
  | 0b001#3 =>
    match funct7 w with
    | 0b0000000#7 => .ok (.slli (rd w) (rs1 w) (rs2 w))
    | _ => .error .unallocated
  | 0b010#3 => .ok (.slti (rd w) (rs1 w) (immI w))
  | 0b011#3 => .ok (.sltiu (rd w) (rs1 w) (immI w))
  | 0b100#3 => .ok (.xori (rd w) (rs1 w) (immI w))
  | 0b101#3 =>
    match funct7 w with
    | 0b0000000#7 => .ok (.srli (rd w) (rs1 w) (rs2 w))
    | 0b0100000#7 => .ok (.srai (rd w) (rs1 w) (rs2 w))
    | _ => .error .unallocated
  | 0b110#3 => .ok (.ori (rd w) (rs1 w) (immI w))
  | _ => .ok (.andi (rd w) (rs1 w) (immI w))

/-- STORE (R133). -/
def decodeStore (w : Word) : Except Reject Instr :=
  match funct3 w with
  | 0b000#3 => .ok (.sb (rs2 w) (rs1 w) (immS w))
  | 0b001#3 => .ok (.sh (rs2 w) (rs1 w) (immS w))
  | 0b010#3 => .ok (.sw (rs2 w) (rs1 w) (immS w))
  | _ => .error .unallocated

/-- STORE-FP (R133, R144). -/
def decodeStoreFp (w : Word) : Except Reject Instr :=
  match funct3 w with
  | 0b010#3 => .ok (.fsw (rs2 w) (rs1 w) (immS w))
  | 0b011#3 => .ok (.fsd (rs2 w) (rs1 w) (immS w))
  | 0b100#3 => .ok (.fsq (rs2 w) (rs1 w) (immS w))
  | _ => .error .unallocated

/-- AMO (R133, R142): LR.W only with rs2 = 00000. -/
def decodeAmo (w : Word) : Except Reject Instr :=
  match funct3 w with
  | 0b010#3 =>
    match funct5 w with
    | 0b00010#5 =>
      match rs2 w with
      | 0b00000#5 => .ok (.lrW (aq w) (rl w) (rd w) (rs1 w))
      | _ => .error .unallocated
    | 0b00011#5 => .ok (.scW (aq w) (rl w) (rd w) (rs1 w) (rs2 w))
    | 0b00001#5 => .ok (.amoswapW (aq w) (rl w) (rd w) (rs1 w) (rs2 w))
    | 0b00000#5 => .ok (.amoaddW (aq w) (rl w) (rd w) (rs1 w) (rs2 w))
    | 0b00100#5 => .ok (.amoxorW (aq w) (rl w) (rd w) (rs1 w) (rs2 w))
    | 0b01100#5 => .ok (.amoandW (aq w) (rl w) (rd w) (rs1 w) (rs2 w))
    | 0b01000#5 => .ok (.amoorW (aq w) (rl w) (rd w) (rs1 w) (rs2 w))
    | 0b10000#5 => .ok (.amominW (aq w) (rl w) (rd w) (rs1 w) (rs2 w))
    | 0b10100#5 => .ok (.amomaxW (aq w) (rl w) (rd w) (rs1 w) (rs2 w))
    | 0b11000#5 => .ok (.amominuW (aq w) (rl w) (rd w) (rs1 w) (rs2 w))
    | 0b11100#5 => .ok (.amomaxuW (aq w) (rl w) (rd w) (rs1 w) (rs2 w))
    | _ => .error .unallocated
  | _ => .error .unallocated

/-- OP with funct7 0000000 (R133). -/
def decodeOp (w : Word) : Instr :=
  match funct3 w with
  | 0b000#3 => .add (rd w) (rs1 w) (rs2 w)
  | 0b001#3 => .sll (rd w) (rs1 w) (rs2 w)
  | 0b010#3 => .slt (rd w) (rs1 w) (rs2 w)
  | 0b011#3 => .sltu (rd w) (rs1 w) (rs2 w)
  | 0b100#3 => .xor (rd w) (rs1 w) (rs2 w)
  | 0b101#3 => .srl (rd w) (rs1 w) (rs2 w)
  | 0b110#3 => .or (rd w) (rs1 w) (rs2 w)
  | _ => .and (rd w) (rs1 w) (rs2 w)

/-- OP with funct7 0000001: the M extension (R133). -/
def decodeMulDiv (w : Word) : Instr :=
  match funct3 w with
  | 0b000#3 => .mul (rd w) (rs1 w) (rs2 w)
  | 0b001#3 => .mulh (rd w) (rs1 w) (rs2 w)
  | 0b010#3 => .mulhsu (rd w) (rs1 w) (rs2 w)
  | 0b011#3 => .mulhu (rd w) (rs1 w) (rs2 w)
  | 0b100#3 => .div (rd w) (rs1 w) (rs2 w)
  | 0b101#3 => .divu (rd w) (rs1 w) (rs2 w)
  | 0b110#3 => .rem (rd w) (rs1 w) (rs2 w)
  | _ => .remu (rd w) (rs1 w) (rs2 w)

/-- OP (R133, R142). -/
def decodeReg (w : Word) : Except Reject Instr :=
  match funct7 w with
  | 0b0000000#7 => .ok (decodeOp w)
  | 0b0000001#7 => .ok (decodeMulDiv w)
  | 0b0100000#7 =>
    match funct3 w with
    | 0b000#3 => .ok (.sub (rd w) (rs1 w) (rs2 w))
    | 0b101#3 => .ok (.sra (rd w) (rs1 w) (rs2 w))
    | _ => .error .unallocated
  | _ => .error .unallocated

/-- FCVT between FP formats, fmt the destination and rs2 the source (R134). -/
def decodeFcvtFmt (w : Word) (rm : Rm) : Except Reject Instr :=
  match fmt w with
  | 0b00#2 =>
    match rs2 w with
    | 0b00001#5 => .ok (.fcvtSD (rd w) (rs1 w) rm)
    | 0b00011#5 => .ok (.fcvtSQ (rd w) (rs1 w) rm)
    | _ => .error .unallocated
  | 0b01#2 =>
    match rs2 w with
    | 0b00000#5 => .ok (.fcvtDS (rd w) (rs1 w) rm)
    | 0b00011#5 => .ok (.fcvtDQ (rd w) (rs1 w) rm)
    | _ => .error .unallocated
  | 0b11#2 =>
    match rs2 w with
    | 0b00000#5 => .ok (.fcvtQS (rd w) (rs1 w) rm)
    | 0b00001#5 => .ok (.fcvtQD (rd w) (rs1 w) rm)
    | _ => .error .unallocated
  | _ => .error .unallocated

/-- FCVT.W[U].fmt (R134). -/
def decodeFcvtToInt (w : Word) (rm : Rm) : Except Reject Instr :=
  match rs2 w with
  | 0b00000#5 =>
    byFmt w (.fcvtWS (rd w) (rs1 w) rm) (.fcvtWD (rd w) (rs1 w) rm) (.fcvtWQ (rd w) (rs1 w) rm)
  | 0b00001#5 =>
    byFmt w (.fcvtWuS (rd w) (rs1 w) rm) (.fcvtWuD (rd w) (rs1 w) rm) (.fcvtWuQ (rd w) (rs1 w) rm)
  | _ => .error .unallocated

/-- FCVT.fmt.W[U] (R134). -/
def decodeFcvtFromInt (w : Word) (rm : Rm) : Except Reject Instr :=
  match rs2 w with
  | 0b00000#5 =>
    byFmt w (.fcvtSW (rd w) (rs1 w) rm) (.fcvtDW (rd w) (rs1 w) rm) (.fcvtQW (rd w) (rs1 w) rm)
  | 0b00001#5 =>
    byFmt w (.fcvtSWu (rd w) (rs1 w) rm) (.fcvtDWu (rd w) (rs1 w) rm) (.fcvtQWu (rd w) (rs1 w) rm)
  | _ => .error .unallocated

/-- funct5 11100: FMV.X.W (fmt 00 only) and FCLASS.fmt, both with rs2 = 00000 (R134). -/
def decodeFmvClass (w : Word) : Except Reject Instr :=
  match rs2 w with
  | 0b00000#5 =>
    match funct3 w with
    | 0b000#3 =>
      match fmt w with
      | 0b00#2 => .ok (.fmvXW (rd w) (rs1 w))
      | _ => .error .unallocated
    | 0b001#3 => byFmt w (.fclassS (rd w) (rs1 w)) (.fclassD (rd w) (rs1 w)) (.fclassQ (rd w) (rs1 w))
    | _ => .error .unallocated
  | _ => .error .unallocated

/-- funct5 11110: FMV.W.X, fmt 00, rs2 = 00000, funct3 000 (R134). -/
def decodeFmvToFp (w : Word) : Except Reject Instr :=
  match rs2 w with
  | 0b00000#5 =>
    match funct3 w with
    | 0b000#3 =>
      match fmt w with
      | 0b00#2 => .ok (.fmvWX (rd w) (rs1 w))
      | _ => .error .unallocated
    | _ => .error .unallocated
  | _ => .error .unallocated

/-- FSGNJ, FSGNJN, FSGNJX (R134). -/
def decodeFsgnj (w : Word) : Except Reject Instr :=
  match funct3 w with
  | 0b000#3 =>
    byFmt w (.fsgnjS (rd w) (rs1 w) (rs2 w)) (.fsgnjD (rd w) (rs1 w) (rs2 w)) (.fsgnjQ (rd w) (rs1 w) (rs2 w))
  | 0b001#3 =>
    byFmt w (.fsgnjnS (rd w) (rs1 w) (rs2 w)) (.fsgnjnD (rd w) (rs1 w) (rs2 w)) (.fsgnjnQ (rd w) (rs1 w) (rs2 w))
  | 0b010#3 =>
    byFmt w (.fsgnjxS (rd w) (rs1 w) (rs2 w)) (.fsgnjxD (rd w) (rs1 w) (rs2 w)) (.fsgnjxQ (rd w) (rs1 w) (rs2 w))
  | _ => .error .unallocated

/-- FMIN and FMAX (R134). -/
def decodeFminmax (w : Word) : Except Reject Instr :=
  match funct3 w with
  | 0b000#3 =>
    byFmt w (.fminS (rd w) (rs1 w) (rs2 w)) (.fminD (rd w) (rs1 w) (rs2 w)) (.fminQ (rd w) (rs1 w) (rs2 w))
  | 0b001#3 =>
    byFmt w (.fmaxS (rd w) (rs1 w) (rs2 w)) (.fmaxD (rd w) (rs1 w) (rs2 w)) (.fmaxQ (rd w) (rs1 w) (rs2 w))
  | _ => .error .unallocated

/-- FLE, FLT and FEQ (R134). -/
def decodeFcmp (w : Word) : Except Reject Instr :=
  match funct3 w with
  | 0b000#3 =>
    byFmt w (.fleS (rd w) (rs1 w) (rs2 w)) (.fleD (rd w) (rs1 w) (rs2 w)) (.fleQ (rd w) (rs1 w) (rs2 w))
  | 0b001#3 =>
    byFmt w (.fltS (rd w) (rs1 w) (rs2 w)) (.fltD (rd w) (rs1 w) (rs2 w)) (.fltQ (rd w) (rs1 w) (rs2 w))
  | 0b010#3 =>
    byFmt w (.feqS (rd w) (rs1 w) (rs2 w)) (.feqD (rd w) (rs1 w) (rs2 w)) (.feqQ (rd w) (rs1 w) (rs2 w))
  | _ => .error .unallocated

/-- OP-FP (R134). -/
def decodeOpFp (w : Word) : Except Reject Instr :=
  match funct5 w with
  | 0b00000#5 =>
    withRm w fun rm =>
      byFmt w (.faddS (rd w) (rs1 w) (rs2 w) rm) (.faddD (rd w) (rs1 w) (rs2 w) rm) (.faddQ (rd w) (rs1 w) (rs2 w) rm)
  | 0b00001#5 =>
    withRm w fun rm =>
      byFmt w (.fsubS (rd w) (rs1 w) (rs2 w) rm) (.fsubD (rd w) (rs1 w) (rs2 w) rm) (.fsubQ (rd w) (rs1 w) (rs2 w) rm)
  | 0b00010#5 =>
    withRm w fun rm =>
      byFmt w (.fmulS (rd w) (rs1 w) (rs2 w) rm) (.fmulD (rd w) (rs1 w) (rs2 w) rm) (.fmulQ (rd w) (rs1 w) (rs2 w) rm)
  | 0b00011#5 =>
    withRm w fun rm =>
      byFmt w (.fdivS (rd w) (rs1 w) (rs2 w) rm) (.fdivD (rd w) (rs1 w) (rs2 w) rm) (.fdivQ (rd w) (rs1 w) (rs2 w) rm)
  | 0b01011#5 =>
    match rs2 w with
    | 0b00000#5 =>
      withRm w fun rm =>
        byFmt w (.fsqrtS (rd w) (rs1 w) rm) (.fsqrtD (rd w) (rs1 w) rm) (.fsqrtQ (rd w) (rs1 w) rm)
    | _ => .error .unallocated
  | 0b00100#5 => decodeFsgnj w
  | 0b00101#5 => decodeFminmax w
  | 0b01000#5 => withRm w (decodeFcvtFmt w)
  | 0b10100#5 => decodeFcmp w
  | 0b11000#5 => withRm w (decodeFcvtToInt w)
  | 0b11010#5 => withRm w (decodeFcvtFromInt w)
  | 0b11100#5 => decodeFmvClass w
  | 0b11110#5 => decodeFmvToFp w
  | _ => .error .unallocated

/-- SYSTEM (R133, R139): with funct3 = 000 only the two exact words. -/
def decodeSystem (w : Word) : Except Reject Instr :=
  match funct3 w with
  | 0b000#3 =>
    match w with
    | 0x00000073#32 => .ok .ecall
    | 0x00100073#32 => .ok .ebreak
    | _ => .error .unallocated
  | 0b001#3 => .ok (.csrrw (rd w) (immI w) (rs1 w))
  | 0b010#3 => .ok (.csrrs (rd w) (immI w) (rs1 w))
  | 0b011#3 => .ok (.csrrc (rd w) (immI w) (rs1 w))
  | 0b101#3 => .ok (.csrrwi (rd w) (immI w) (rs1 w))
  | 0b110#3 => .ok (.csrrsi (rd w) (immI w) (rs1 w))
  | 0b111#3 => .ok (.csrrci (rd w) (immI w) (rs1 w))
  | _ => .error .unallocated

/-- BRANCH (R133). -/
def decodeBranch (w : Word) : Except Reject Instr :=
  match funct3 w with
  | 0b000#3 => .ok (.beq (rs1 w) (rs2 w) (offB w))
  | 0b001#3 => .ok (.bne (rs1 w) (rs2 w) (offB w))
  | 0b100#3 => .ok (.blt (rs1 w) (rs2 w) (offB w))
  | 0b101#3 => .ok (.bge (rs1 w) (rs2 w) (offB w))
  | 0b110#3 => .ok (.bltu (rs1 w) (rs2 w) (offB w))
  | 0b111#3 => .ok (.bgeu (rs1 w) (rs2 w) (offB w))
  | _ => .error .unallocated

/-- A 32-bit word, by major opcode (R133): every other major opcode is illegal (R122, R138, R140). -/
def decode32 (w : Word) : Except Reject Instr :=
  match opcode w with
  | 0b0000011#7 => decodeLoad w
  | 0b0000111#7 => decodeLoadFp w
  | 0b0001111#7 => decodeMiscMem w
  | 0b0010011#7 => decodeOpImm w
  | 0b0010111#7 => .ok (.auipc (rd w) (immU w))
  | 0b0100011#7 => decodeStore w
  | 0b0100111#7 => decodeStoreFp w
  | 0b0101111#7 => decodeAmo w
  | 0b0110011#7 => decodeReg w
  | 0b0110111#7 => .ok (.lui (rd w) (immU w))
  | 0b1000011#7 =>
    withRm w fun rm =>
      byFmt w (.fmaddS (rd w) (rs1 w) (rs2 w) (funct5 w) rm) (.fmaddD (rd w) (rs1 w) (rs2 w) (funct5 w) rm)
        (.fmaddQ (rd w) (rs1 w) (rs2 w) (funct5 w) rm)
  | 0b1000111#7 =>
    withRm w fun rm =>
      byFmt w (.fmsubS (rd w) (rs1 w) (rs2 w) (funct5 w) rm) (.fmsubD (rd w) (rs1 w) (rs2 w) (funct5 w) rm)
        (.fmsubQ (rd w) (rs1 w) (rs2 w) (funct5 w) rm)
  | 0b1001011#7 =>
    withRm w fun rm =>
      byFmt w (.fnmsubS (rd w) (rs1 w) (rs2 w) (funct5 w) rm) (.fnmsubD (rd w) (rs1 w) (rs2 w) (funct5 w) rm)
        (.fnmsubQ (rd w) (rs1 w) (rs2 w) (funct5 w) rm)
  | 0b1001111#7 =>
    withRm w fun rm =>
      byFmt w (.fnmaddS (rd w) (rs1 w) (rs2 w) (funct5 w) rm) (.fnmaddD (rd w) (rs1 w) (rs2 w) (funct5 w) rm)
        (.fnmaddQ (rd w) (rs1 w) (rs2 w) (funct5 w) rm)
  | 0b1010011#7 => decodeOpFp w
  | 0b1100011#7 => decodeBranch w
  | 0b1100111#7 =>
    match funct3 w with
    | 0b000#3 => .ok (.jalr (rd w) (rs1 w) (immI w))
    | _ => .error .unallocated
  | 0b1101111#7 => .ok (.jal (rd w) (offJ w))
  | 0b1110011#7 => decodeSystem w
  | _ => .error .unallocated

/-! ### Decoding 16-bit parcels -/

/-- Quadrant 0 (R604 to R611). -/
def decodeC0 (p : Parcel) : Except Reject Instr :=
  match cFunct3 p with
  | 0b000#3 => if immCIW p = 0#8 then .error .reservedCompressed else .ok (.cAddi4spn (cRs2' p) (immCIW p))
  | 0b001#3 => .ok (.cFld (cRs2' p) (cRs1' p) (immCLD p))
  | 0b010#3 => .ok (.cLw (cRs2' p) (cRs1' p) (immCLW p))
  | 0b011#3 => .ok (.cFlw (cRs2' p) (cRs1' p) (immCLW p))
  | 0b101#3 => .ok (.cFsd (cRs2' p) (cRs1' p) (immCLD p))
  | 0b110#3 => .ok (.cSw (cRs2' p) (cRs1' p) (immCLW p))
  | 0b111#3 => .ok (.cFsw (cRs2' p) (cRs1' p) (immCLW p))
  | _ => .error .reservedCompressed

/-- Quadrant 1, funct3 100: the arithmetic group (R604, R618 to R624). -/
def decodeCArith (p : Parcel) : Except Reject Instr :=
  match cFunct2 p with
  | 0b00#2 => if cBit12 p = 0#1 then .ok (.cSrli (cRs1' p) (cRs2 p)) else .error .reservedCompressed
  | 0b01#2 => if cBit12 p = 0#1 then .ok (.cSrai (cRs1' p) (cRs2 p)) else .error .reservedCompressed
  | 0b10#2 => .ok (.cAndi (cRs1' p) (immCI p))
  | _ =>
    if cBit12 p = 0#1 then
      match cFunct2a p with
      | 0b00#2 => .ok (.cSub (cRs1' p) (cRs2' p))
      | 0b01#2 => .ok (.cXor (cRs1' p) (cRs2' p))
      | 0b10#2 => .ok (.cOr (cRs1' p) (cRs2' p))
      | _ => .ok (.cAnd (cRs1' p) (cRs2' p))
    else .error .reservedCompressed

/-- Quadrant 1 (R604, R612 to R627). -/
def decodeC1 (p : Parcel) : Except Reject Instr :=
  match cFunct3 p with
  | 0b000#3 => if cRd p = 0#5 then .ok (.cNop (immCI p)) else .ok (.cAddi (cRd p) (immCI p))
  | 0b001#3 => .ok (.cJal (offCJ p))
  | 0b010#3 => .ok (.cLi (cRd p) (immCI p))
  | 0b011#3 =>
    if cRd p = 2#5 then
      if immCI16SP p = 0#6 then .error .reservedCompressed else .ok (.cAddi16sp (immCI16SP p))
    else
      if immCI p = 0#6 then .error .reservedCompressed else .ok (.cLui (cRd p) (immCI p))
  | 0b100#3 => decodeCArith p
  | 0b101#3 => .ok (.cJ (offCJ p))
  | 0b110#3 => .ok (.cBeqz (cRs1' p) (offCB p))
  | _ => .ok (.cBnez (cRs1' p) (offCB p))

/-- Quadrant 2 (R604, R628 to R639). -/
def decodeC2 (p : Parcel) : Except Reject Instr :=
  match cFunct3 p with
  | 0b000#3 => if cBit12 p = 0#1 then .ok (.cSlli (cRd p) (cRs2 p)) else .error .reservedCompressed
  | 0b001#3 => .ok (.cFldsp (cRd p) (immCIDSP p))
  | 0b010#3 => if cRd p = 0#5 then .error .reservedCompressed else .ok (.cLwsp (cRd p) (immCIWSP p))
  | 0b011#3 => .ok (.cFlwsp (cRd p) (immCIWSP p))
  | 0b100#3 =>
    if cBit12 p = 0#1 then
      if cRs2 p = 0#5 then
        if cRd p = 0#5 then .error .reservedCompressed else .ok (.cJr (cRd p))
      else .ok (.cMv (cRd p) (cRs2 p))
    else
      if cRs2 p = 0#5 then
        if cRd p = 0#5 then .ok .cEbreak else .ok (.cJalr (cRd p))
      else .ok (.cAdd (cRd p) (cRs2 p))
  | 0b101#3 => .ok (.cFsdsp (cRs2 p) (immCSSD p))
  | 0b110#3 => .ok (.cSwsp (cRs2 p) (immCSSW p))
  | _ => .ok (.cFswsp (cRs2 p) (immCSSW p))

/-- A 16-bit parcel; bits [1:0] = 11 is no parcel of its own (R600, R120). -/
def decode16 (p : Parcel) : Except Reject Instr :=
  match op p with
  | 0b00#2 => decodeC0 p
  | 0b01#2 => decodeC1 p
  | 0b10#2 => decodeC2 p
  | _ => .error .unallocated

/-- The decoder on bytes: the length is 4 when bits [1:0] of the first parcel are 11, else 2 (R120, R121, R82). -/
def decode : List Byte → Except Reject (Instr × List Byte)
  | b0 :: b1 :: rest =>
    if op (b1 ++ b0) = 0b11#2 then
      match rest with
      | b2 :: b3 :: rest' =>
        match decode32 (b3 ++ b2 ++ b1 ++ b0) with
        | .ok i => .ok (i, rest')
        | .error e => .error e
      | _ => .error .truncated
    else
      match decode16 (b1 ++ b0) with
      | .ok i => .ok (i, rest)
      | .error e => .error e
  | _ => .error .truncated

/-- The instruction the decoder reads from an instruction whose bits are `w` (the first `nbits` of them fixed by the
opcode table, the rest zero), laid out as four little-endian bytes. -/
def decodeTableWord (nbits w : Nat) : Option Instr :=
  let v := BitVec.ofNat 32 (w % 2 ^ nbits)
  match decode [v.extractLsb' 0 8, v.extractLsb' 8 8, v.extractLsb' 16 8, v.extractLsb' 24 8] with
  | .ok (i, _) => some i
  | .error _ => none

/-! ### Gating -/

/-- C is enabled at a step iff C_IMPLEMENTED and Enabled(C) (R701 line 2, R600, 92 D39). -/
def cEnabled (cfg : Config) (g : Gates) : Bool := cfg.cImplemented && g.c

/-- The extension is available at the step (R136, R145, R400). -/
def Ext.enabled (cfg : Config) (g : Gates) : Ext → Bool
  | .i | .zicsr | .zifencei => true
  | .m => g.m
  | .a => g.a
  | .f => g.f && decide (32 ≤ cfg.flen.bits)
  | .d => g.d && decide (64 ≤ cfg.flen.bits)
  | .q => g.q && decide (128 ≤ cfg.flen.bits)
  | .c => cEnabled cfg g
  | .cf => cEnabled cfg g && (g.f && decide (32 ≤ cfg.flen.bits))
  | .cd => cEnabled cfg g && (g.d && decide (64 ≤ cfg.flen.bits))

/-- The instruction's extension: the `extension` column of the opcode table (R136). -/
def Instr.ext : Instr → Ext
  | .lui _ _ => .i
  | .auipc _ _ => .i
  | .jal _ _ => .i
  | .jalr _ _ _ => .i
  | .beq _ _ _ => .i
  | .bne _ _ _ => .i
  | .blt _ _ _ => .i
  | .bge _ _ _ => .i
  | .bltu _ _ _ => .i
  | .bgeu _ _ _ => .i
  | .lb _ _ _ => .i
  | .lh _ _ _ => .i
  | .lw _ _ _ => .i
  | .lbu _ _ _ => .i
  | .lhu _ _ _ => .i
  | .sb _ _ _ => .i
  | .sh _ _ _ => .i
  | .sw _ _ _ => .i
  | .addi _ _ _ => .i
  | .slti _ _ _ => .i
  | .sltiu _ _ _ => .i
  | .xori _ _ _ => .i
  | .ori _ _ _ => .i
  | .andi _ _ _ => .i
  | .slli _ _ _ => .i
  | .srli _ _ _ => .i
  | .srai _ _ _ => .i
  | .add _ _ _ => .i
  | .sub _ _ _ => .i
  | .sll _ _ _ => .i
  | .slt _ _ _ => .i
  | .sltu _ _ _ => .i
  | .xor _ _ _ => .i
  | .srl _ _ _ => .i
  | .sra _ _ _ => .i
  | .or _ _ _ => .i
  | .and _ _ _ => .i
  | .fence _ _ _ _ _ => .i
  | .ecall => .i
  | .ebreak => .i
  | .mul _ _ _ => .m
  | .mulh _ _ _ => .m
  | .mulhsu _ _ _ => .m
  | .mulhu _ _ _ => .m
  | .div _ _ _ => .m
  | .divu _ _ _ => .m
  | .rem _ _ _ => .m
  | .remu _ _ _ => .m
  | .lrW _ _ _ _ => .a
  | .scW _ _ _ _ _ => .a
  | .amoswapW _ _ _ _ _ => .a
  | .amoaddW _ _ _ _ _ => .a
  | .amoxorW _ _ _ _ _ => .a
  | .amoandW _ _ _ _ _ => .a
  | .amoorW _ _ _ _ _ => .a
  | .amominW _ _ _ _ _ => .a
  | .amomaxW _ _ _ _ _ => .a
  | .amominuW _ _ _ _ _ => .a
  | .amomaxuW _ _ _ _ _ => .a
  | .csrrw _ _ _ => .zicsr
  | .csrrs _ _ _ => .zicsr
  | .csrrc _ _ _ => .zicsr
  | .csrrwi _ _ _ => .zicsr
  | .csrrsi _ _ _ => .zicsr
  | .csrrci _ _ _ => .zicsr
  | .fenceI _ _ _ => .zifencei
  | .flw _ _ _ => .f
  | .fsw _ _ _ => .f
  | .fmaddS _ _ _ _ _ => .f
  | .fmsubS _ _ _ _ _ => .f
  | .fnmsubS _ _ _ _ _ => .f
  | .fnmaddS _ _ _ _ _ => .f
  | .faddS _ _ _ _ => .f
  | .fsubS _ _ _ _ => .f
  | .fmulS _ _ _ _ => .f
  | .fdivS _ _ _ _ => .f
  | .fsqrtS _ _ _ => .f
  | .fsgnjS _ _ _ => .f
  | .fsgnjnS _ _ _ => .f
  | .fsgnjxS _ _ _ => .f
  | .fminS _ _ _ => .f
  | .fmaxS _ _ _ => .f
  | .feqS _ _ _ => .f
  | .fltS _ _ _ => .f
  | .fleS _ _ _ => .f
  | .fclassS _ _ => .f
  | .fcvtWS _ _ _ => .f
  | .fcvtWuS _ _ _ => .f
  | .fcvtSW _ _ _ => .f
  | .fcvtSWu _ _ _ => .f
  | .fld _ _ _ => .d
  | .fsd _ _ _ => .d
  | .fmaddD _ _ _ _ _ => .d
  | .fmsubD _ _ _ _ _ => .d
  | .fnmsubD _ _ _ _ _ => .d
  | .fnmaddD _ _ _ _ _ => .d
  | .faddD _ _ _ _ => .d
  | .fsubD _ _ _ _ => .d
  | .fmulD _ _ _ _ => .d
  | .fdivD _ _ _ _ => .d
  | .fsqrtD _ _ _ => .d
  | .fsgnjD _ _ _ => .d
  | .fsgnjnD _ _ _ => .d
  | .fsgnjxD _ _ _ => .d
  | .fminD _ _ _ => .d
  | .fmaxD _ _ _ => .d
  | .feqD _ _ _ => .d
  | .fltD _ _ _ => .d
  | .fleD _ _ _ => .d
  | .fclassD _ _ => .d
  | .fcvtWD _ _ _ => .d
  | .fcvtWuD _ _ _ => .d
  | .fcvtDW _ _ _ => .d
  | .fcvtDWu _ _ _ => .d
  | .flq _ _ _ => .q
  | .fsq _ _ _ => .q
  | .fmaddQ _ _ _ _ _ => .q
  | .fmsubQ _ _ _ _ _ => .q
  | .fnmsubQ _ _ _ _ _ => .q
  | .fnmaddQ _ _ _ _ _ => .q
  | .faddQ _ _ _ _ => .q
  | .fsubQ _ _ _ _ => .q
  | .fmulQ _ _ _ _ => .q
  | .fdivQ _ _ _ _ => .q
  | .fsqrtQ _ _ _ => .q
  | .fsgnjQ _ _ _ => .q
  | .fsgnjnQ _ _ _ => .q
  | .fsgnjxQ _ _ _ => .q
  | .fminQ _ _ _ => .q
  | .fmaxQ _ _ _ => .q
  | .feqQ _ _ _ => .q
  | .fltQ _ _ _ => .q
  | .fleQ _ _ _ => .q
  | .fclassQ _ _ => .q
  | .fcvtWQ _ _ _ => .q
  | .fcvtWuQ _ _ _ => .q
  | .fcvtQW _ _ _ => .q
  | .fcvtQWu _ _ _ => .q
  | .fmvXW _ _ => .f
  | .fmvWX _ _ => .f
  | .fcvtSD _ _ _ => .d
  | .fcvtDS _ _ _ => .d
  | .fcvtSQ _ _ _ => .q
  | .fcvtQS _ _ _ => .q
  | .fcvtDQ _ _ _ => .q
  | .fcvtQD _ _ _ => .q
  | .cAddi4spn _ _ => .c
  | .cFld _ _ _ => .cd
  | .cLw _ _ _ => .c
  | .cFlw _ _ _ => .cf
  | .cFsd _ _ _ => .cd
  | .cSw _ _ _ => .c
  | .cFsw _ _ _ => .cf
  | .cNop _ => .c
  | .cAddi _ _ => .c
  | .cJal _ => .c
  | .cLi _ _ => .c
  | .cAddi16sp _ => .c
  | .cLui _ _ => .c
  | .cSrli _ _ => .c
  | .cSrai _ _ => .c
  | .cAndi _ _ => .c
  | .cSub _ _ => .c
  | .cXor _ _ => .c
  | .cOr _ _ => .c
  | .cAnd _ _ => .c
  | .cJ _ => .c
  | .cBeqz _ _ => .c
  | .cBnez _ _ => .c
  | .cSlli _ _ => .c
  | .cFldsp _ _ => .cd
  | .cLwsp _ _ => .c
  | .cFlwsp _ _ => .cf
  | .cJr _ => .c
  | .cMv _ _ => .c
  | .cEbreak => .c
  | .cJalr _ => .c
  | .cAdd _ _ => .c
  | .cFsdsp _ _ => .cd
  | .cSwsp _ _ => .c
  | .cFswsp _ _ => .cf
/-- The instruction may be executed at the step (R136, R145). -/
def Instr.enabled (cfg : Config) (g : Gates) (i : Instr) : Bool := i.ext.enabled cfg g

/-- The spec's `Decode(bits, len, G, FLEN, C_IMPLEMENTED)` (R146, R705), on the fetched bits of a 16-bit or 32-bit
encoding. -/
def decodeStep (cfg : Config) (g : Gates) (bits : Word) (len : Nat) : Except Reject Instr :=
  match (if len = 4 then decode32 bits else decode16 (bits.setWidth 16)) with
  | .ok i => if i.enabled cfg g then .ok i else .error .notEnabled
  | .error e => .error e

/-! ### The encoder -/

/-- The encoded form of an instruction: a 16-bit parcel or a 32-bit word (R120). -/
inductive Encoded where
  | half (p : Parcel)
  | word (w : Word)
  deriving DecidableEq, Repr

/-- The length in bytes, 2 or 4 (R120). -/
def Encoded.len : Encoded → Nat
  | .half _ => 2
  | .word _ => 4

/-- The bits as a word, a parcel zero-extended (R712). -/
def Encoded.bits : Encoded → Word
  | .half p => p.setWidth 32
  | .word w => w

/-- The bytes in memory, lowest address first (R82, R121). -/
def Encoded.bytes : Encoded → List Byte
  | .half p => [p.extractLsb' 0 8, p.extractLsb' 8 8]
  | .word w => [w.extractLsb' 0 8, w.extractLsb' 8 8, w.extractLsb' 16 8, w.extractLsb' 24 8]

/-- The rm field's bits (R55, R407). -/
def Rm.bits : Rm → BitVec 3
  | .mode .rne => 0b000#3
  | .mode .rtz => 0b001#3
  | .mode .rdn => 0b010#3
  | .mode .rup => 0b011#3
  | .mode .rmm => 0b100#3
  | .dyn => 0b111#3

namespace Enc

/-! The formats of 30_encoding.md R123 and R124. -/

def mkR (f7 : BitVec 7) (rs2 rs1 : BitVec 5) (f3 : BitVec 3) (rd : BitVec 5) (opc : BitVec 7) : Word :=
  (f7 ++ rs2 ++ rs1 ++ f3 ++ rd ++ opc).cast rfl

/-- R4; also R-fp, with funct5 in the place of rs3. -/
def mkR4 (f5 : BitVec 5) (fm : BitVec 2) (rs2 rs1 : BitVec 5) (f3 : BitVec 3) (rd : BitVec 5) (opc : BitVec 7) : Word :=
  (f5 ++ fm ++ rs2 ++ rs1 ++ f3 ++ rd ++ opc).cast rfl

def mkAmo (f5 : BitVec 5) (aq rl : BitVec 1) (rs2 rs1 : BitVec 5) (f3 : BitVec 3) (rd : BitVec 5) (opc : BitVec 7) :
    Word :=
  (f5 ++ aq ++ rl ++ rs2 ++ rs1 ++ f3 ++ rd ++ opc).cast rfl

def mkFence (fm pred succ : BitVec 4) (rs1 : BitVec 5) (f3 : BitVec 3) (rd : BitVec 5) (opc : BitVec 7) : Word :=
  (fm ++ pred ++ succ ++ rs1 ++ f3 ++ rd ++ opc).cast rfl

def mkI (imm : BitVec 12) (rs1 : BitVec 5) (f3 : BitVec 3) (rd : BitVec 5) (opc : BitVec 7) : Word :=
  (imm ++ rs1 ++ f3 ++ rd ++ opc).cast rfl

def mkS (imm : BitVec 12) (rs2 rs1 : BitVec 5) (f3 : BitVec 3) (opc : BitVec 7) : Word :=
  (imm.extractLsb' 5 7 ++ rs2 ++ rs1 ++ f3 ++ imm.extractLsb' 0 5 ++ opc).cast rfl

/-- `off` is imm_B[12:1]: bit 31 holds [12], bits 30:25 [10:5], bits 11:8 [4:1], bit 7 [11]. -/
def mkB (off : BitVec 12) (rs2 rs1 : BitVec 5) (f3 : BitVec 3) (opc : BitVec 7) : Word :=
  (off.extractLsb' 11 1 ++ off.extractLsb' 4 6 ++ rs2 ++ rs1 ++ f3 ++ off.extractLsb' 0 4 ++ off.extractLsb' 10 1 ++
    opc).cast rfl

def mkU (imm : BitVec 20) (rd : BitVec 5) (opc : BitVec 7) : Word := (imm ++ rd ++ opc).cast rfl

/-- `off` is imm_J[20:1]: bit 31 holds [20], bits 30:21 [10:1], bit 20 [11], bits 19:12 [19:12]. -/
def mkJ (off : BitVec 20) (rd : BitVec 5) (opc : BitVec 7) : Word :=
  (off.extractLsb' 19 1 ++ off.extractLsb' 0 10 ++ off.extractLsb' 10 1 ++ off.extractLsb' 11 8 ++ rd ++ opc).cast rfl

/-! The formats of 48_compressed.md, each immediate placed as its rule says. -/

/-- `imm` is nzuimm[9:2] (R605). -/
def mkCIW (f3 : BitVec 3) (imm : BitVec 8) (rd : BitVec 3) (o : BitVec 2) : Parcel :=
  (f3 ++ imm.extractLsb' 2 2 ++ imm.extractLsb' 4 4 ++ imm.extractLsb' 0 1 ++ imm.extractLsb' 1 1 ++ rd ++ o).cast rfl

/-- `imm` is uimm[7:3] (R606). -/
def mkCLD (f3 : BitVec 3) (imm : BitVec 5) (rs1 r : BitVec 3) (o : BitVec 2) : Parcel :=
  (f3 ++ imm.extractLsb' 0 3 ++ rs1 ++ imm.extractLsb' 3 2 ++ r ++ o).cast rfl

/-- `imm` is uimm[6:2] (R607). -/
def mkCLW (f3 : BitVec 3) (imm : BitVec 5) (rs1 r : BitVec 3) (o : BitVec 2) : Parcel :=
  (f3 ++ imm.extractLsb' 1 3 ++ rs1 ++ imm.extractLsb' 0 1 ++ imm.extractLsb' 4 1 ++ r ++ o).cast rfl

def mkCI (f3 : BitVec 3) (imm : BitVec 6) (rd : BitVec 5) (o : BitVec 2) : Parcel :=
  (f3 ++ imm.extractLsb' 5 1 ++ rd ++ imm.extractLsb' 0 5 ++ o).cast rfl

/-- `imm` is nzimm[9:4] (R616). -/
def mkCI16SP (f3 : BitVec 3) (imm : BitVec 6) (rd : BitVec 5) (o : BitVec 2) : Parcel :=
  (f3 ++ imm.extractLsb' 5 1 ++ rd ++ imm.extractLsb' 0 1 ++ imm.extractLsb' 2 1 ++ imm.extractLsb' 3 2 ++
    imm.extractLsb' 1 1 ++ o).cast rfl

/-- `imm` is uimm[8:3] (R629). -/
def mkCIDSP (f3 : BitVec 3) (imm : BitVec 6) (rd : BitVec 5) (o : BitVec 2) : Parcel :=
  (f3 ++ imm.extractLsb' 2 1 ++ rd ++ imm.extractLsb' 0 2 ++ imm.extractLsb' 3 3 ++ o).cast rfl

/-- `imm` is uimm[7:2] (R630). -/
def mkCIWSP (f3 : BitVec 3) (imm : BitVec 6) (rd : BitVec 5) (o : BitVec 2) : Parcel :=
  (f3 ++ imm.extractLsb' 3 1 ++ rd ++ imm.extractLsb' 0 3 ++ imm.extractLsb' 4 2 ++ o).cast rfl

/-- `off` is offset[11:1] (R614). -/
def mkCJ (f3 : BitVec 3) (off : BitVec 11) (o : BitVec 2) : Parcel :=
  (f3 ++ off.extractLsb' 10 1 ++ off.extractLsb' 3 1 ++ off.extractLsb' 7 2 ++ off.extractLsb' 9 1 ++
    off.extractLsb' 5 1 ++ off.extractLsb' 6 1 ++ off.extractLsb' 0 3 ++ off.extractLsb' 4 1 ++ o).cast rfl

/-- `off` is offset[8:1] (R626). -/
def mkCB (f3 : BitVec 3) (off : BitVec 8) (rs1 : BitVec 3) (o : BitVec 2) : Parcel :=
  (f3 ++ off.extractLsb' 7 1 ++ off.extractLsb' 2 2 ++ rs1 ++ off.extractLsb' 5 2 ++ off.extractLsb' 0 2 ++
    off.extractLsb' 4 1 ++ o).cast rfl

/-- CB-shift and C.ANDI (R618, R620). -/
def mkCBi (f3 : BitVec 3) (b12 : BitVec 1) (f2 : BitVec 2) (rd : BitVec 3) (low : BitVec 5) (o : BitVec 2) : Parcel :=
  (f3 ++ b12 ++ f2 ++ rd ++ low ++ o).cast rfl

def mkCA (f6 : BitVec 6) (rd : BitVec 3) (f2 : BitVec 2) (rs2 : BitVec 3) (o : BitVec 2) : Parcel :=
  (f6 ++ rd ++ f2 ++ rs2 ++ o).cast rfl

def mkCR (f4 : BitVec 4) (rd rs2 : BitVec 5) (o : BitVec 2) : Parcel := (f4 ++ rd ++ rs2 ++ o).cast rfl

/-- `imm` is uimm[8:3] (R637). -/
def mkCSSD (f3 : BitVec 3) (imm : BitVec 6) (rs2 : BitVec 5) (o : BitVec 2) : Parcel :=
  (f3 ++ imm.extractLsb' 0 3 ++ imm.extractLsb' 3 3 ++ rs2 ++ o).cast rfl

/-- `imm` is uimm[7:2] (R638). -/
def mkCSSW (f3 : BitVec 3) (imm : BitVec 6) (rs2 : BitVec 5) (o : BitVec 2) : Parcel :=
  (f3 ++ imm.extractLsb' 0 4 ++ imm.extractLsb' 4 2 ++ rs2 ++ o).cast rfl

end Enc

open Enc

/-- The instruction's encoding (30_encoding.md, 48_compressed.md, spec/opcode_table.json). -/
def Instr.encoded : Instr → Encoded
  | .lui rd imm => .word (mkU imm rd 0x37#7)
  | .auipc rd imm => .word (mkU imm rd 0x17#7)
  | .jal rd off => .word (mkJ off rd 0x6f#7)
  | .jalr rd rs1 imm => .word (mkI imm rs1 0#3 rd 0x67#7)
  | .beq rs1 rs2 off => .word (mkB off rs2 rs1 0#3 0x63#7)
  | .bne rs1 rs2 off => .word (mkB off rs2 rs1 1#3 0x63#7)
  | .blt rs1 rs2 off => .word (mkB off rs2 rs1 4#3 0x63#7)
  | .bge rs1 rs2 off => .word (mkB off rs2 rs1 5#3 0x63#7)
  | .bltu rs1 rs2 off => .word (mkB off rs2 rs1 6#3 0x63#7)
  | .bgeu rs1 rs2 off => .word (mkB off rs2 rs1 7#3 0x63#7)
  | .lb rd rs1 imm => .word (mkI imm rs1 0#3 rd 0x03#7)
  | .lh rd rs1 imm => .word (mkI imm rs1 1#3 rd 0x03#7)
  | .lw rd rs1 imm => .word (mkI imm rs1 2#3 rd 0x03#7)
  | .lbu rd rs1 imm => .word (mkI imm rs1 4#3 rd 0x03#7)
  | .lhu rd rs1 imm => .word (mkI imm rs1 5#3 rd 0x03#7)
  | .sb rs2 rs1 imm => .word (mkS imm rs2 rs1 0#3 0x23#7)
  | .sh rs2 rs1 imm => .word (mkS imm rs2 rs1 1#3 0x23#7)
  | .sw rs2 rs1 imm => .word (mkS imm rs2 rs1 2#3 0x23#7)
  | .addi rd rs1 imm => .word (mkI imm rs1 0#3 rd 0x13#7)
  | .slti rd rs1 imm => .word (mkI imm rs1 2#3 rd 0x13#7)
  | .sltiu rd rs1 imm => .word (mkI imm rs1 3#3 rd 0x13#7)
  | .xori rd rs1 imm => .word (mkI imm rs1 4#3 rd 0x13#7)
  | .ori rd rs1 imm => .word (mkI imm rs1 6#3 rd 0x13#7)
  | .andi rd rs1 imm => .word (mkI imm rs1 7#3 rd 0x13#7)
  | .slli rd rs1 shamt => .word (mkR 0x00#7 shamt rs1 1#3 rd 0x13#7)
  | .srli rd rs1 shamt => .word (mkR 0x00#7 shamt rs1 5#3 rd 0x13#7)
  | .srai rd rs1 shamt => .word (mkR 0x20#7 shamt rs1 5#3 rd 0x13#7)
  | .add rd rs1 rs2 => .word (mkR 0x00#7 rs2 rs1 0#3 rd 0x33#7)
  | .sub rd rs1 rs2 => .word (mkR 0x20#7 rs2 rs1 0#3 rd 0x33#7)
  | .sll rd rs1 rs2 => .word (mkR 0x00#7 rs2 rs1 1#3 rd 0x33#7)
  | .slt rd rs1 rs2 => .word (mkR 0x00#7 rs2 rs1 2#3 rd 0x33#7)
  | .sltu rd rs1 rs2 => .word (mkR 0x00#7 rs2 rs1 3#3 rd 0x33#7)
  | .xor rd rs1 rs2 => .word (mkR 0x00#7 rs2 rs1 4#3 rd 0x33#7)
  | .srl rd rs1 rs2 => .word (mkR 0x00#7 rs2 rs1 5#3 rd 0x33#7)
  | .sra rd rs1 rs2 => .word (mkR 0x20#7 rs2 rs1 5#3 rd 0x33#7)
  | .or rd rs1 rs2 => .word (mkR 0x00#7 rs2 rs1 6#3 rd 0x33#7)
  | .and rd rs1 rs2 => .word (mkR 0x00#7 rs2 rs1 7#3 rd 0x33#7)
  | .fence fm pred succ rs1 rd => .word (mkFence fm pred succ rs1 0#3 rd 0x0f#7)
  | .ecall => .word 0x00000073#32
  | .ebreak => .word 0x00100073#32
  | .mul rd rs1 rs2 => .word (mkR 0x01#7 rs2 rs1 0#3 rd 0x33#7)
  | .mulh rd rs1 rs2 => .word (mkR 0x01#7 rs2 rs1 1#3 rd 0x33#7)
  | .mulhsu rd rs1 rs2 => .word (mkR 0x01#7 rs2 rs1 2#3 rd 0x33#7)
  | .mulhu rd rs1 rs2 => .word (mkR 0x01#7 rs2 rs1 3#3 rd 0x33#7)
  | .div rd rs1 rs2 => .word (mkR 0x01#7 rs2 rs1 4#3 rd 0x33#7)
  | .divu rd rs1 rs2 => .word (mkR 0x01#7 rs2 rs1 5#3 rd 0x33#7)
  | .rem rd rs1 rs2 => .word (mkR 0x01#7 rs2 rs1 6#3 rd 0x33#7)
  | .remu rd rs1 rs2 => .word (mkR 0x01#7 rs2 rs1 7#3 rd 0x33#7)
  | .lrW aq rl rd rs1 => .word (mkAmo 0x02#5 aq rl 0#5 rs1 2#3 rd 0x2f#7)
  | .scW aq rl rd rs1 rs2 => .word (mkAmo 0x03#5 aq rl rs2 rs1 2#3 rd 0x2f#7)
  | .amoswapW aq rl rd rs1 rs2 => .word (mkAmo 0x01#5 aq rl rs2 rs1 2#3 rd 0x2f#7)
  | .amoaddW aq rl rd rs1 rs2 => .word (mkAmo 0x00#5 aq rl rs2 rs1 2#3 rd 0x2f#7)
  | .amoxorW aq rl rd rs1 rs2 => .word (mkAmo 0x04#5 aq rl rs2 rs1 2#3 rd 0x2f#7)
  | .amoandW aq rl rd rs1 rs2 => .word (mkAmo 0x0c#5 aq rl rs2 rs1 2#3 rd 0x2f#7)
  | .amoorW aq rl rd rs1 rs2 => .word (mkAmo 0x08#5 aq rl rs2 rs1 2#3 rd 0x2f#7)
  | .amominW aq rl rd rs1 rs2 => .word (mkAmo 0x10#5 aq rl rs2 rs1 2#3 rd 0x2f#7)
  | .amomaxW aq rl rd rs1 rs2 => .word (mkAmo 0x14#5 aq rl rs2 rs1 2#3 rd 0x2f#7)
  | .amominuW aq rl rd rs1 rs2 => .word (mkAmo 0x18#5 aq rl rs2 rs1 2#3 rd 0x2f#7)
  | .amomaxuW aq rl rd rs1 rs2 => .word (mkAmo 0x1c#5 aq rl rs2 rs1 2#3 rd 0x2f#7)
  | .csrrw rd csr rs1 => .word (mkI csr rs1 1#3 rd 0x73#7)
  | .csrrs rd csr rs1 => .word (mkI csr rs1 2#3 rd 0x73#7)
  | .csrrc rd csr rs1 => .word (mkI csr rs1 3#3 rd 0x73#7)
  | .csrrwi rd csr uimm => .word (mkI csr uimm 5#3 rd 0x73#7)
  | .csrrsi rd csr uimm => .word (mkI csr uimm 6#3 rd 0x73#7)
  | .csrrci rd csr uimm => .word (mkI csr uimm 7#3 rd 0x73#7)
  | .fenceI imm rs1 rd => .word (mkI imm rs1 1#3 rd 0x0f#7)
  | .flw rd rs1 imm => .word (mkI imm rs1 2#3 rd 0x07#7)
  | .fsw rs2 rs1 imm => .word (mkS imm rs2 rs1 2#3 0x27#7)
  | .fmaddS rd rs1 rs2 rs3 rm => .word (mkR4 rs3 0#2 rs2 rs1 rm.bits rd 0x43#7)
  | .fmsubS rd rs1 rs2 rs3 rm => .word (mkR4 rs3 0#2 rs2 rs1 rm.bits rd 0x47#7)
  | .fnmsubS rd rs1 rs2 rs3 rm => .word (mkR4 rs3 0#2 rs2 rs1 rm.bits rd 0x4b#7)
  | .fnmaddS rd rs1 rs2 rs3 rm => .word (mkR4 rs3 0#2 rs2 rs1 rm.bits rd 0x4f#7)
  | .faddS rd rs1 rs2 rm => .word (mkR4 0x00#5 0#2 rs2 rs1 rm.bits rd 0x53#7)
  | .fsubS rd rs1 rs2 rm => .word (mkR4 0x01#5 0#2 rs2 rs1 rm.bits rd 0x53#7)
  | .fmulS rd rs1 rs2 rm => .word (mkR4 0x02#5 0#2 rs2 rs1 rm.bits rd 0x53#7)
  | .fdivS rd rs1 rs2 rm => .word (mkR4 0x03#5 0#2 rs2 rs1 rm.bits rd 0x53#7)
  | .fsqrtS rd rs1 rm => .word (mkR4 0x0b#5 0#2 0#5 rs1 rm.bits rd 0x53#7)
  | .fsgnjS rd rs1 rs2 => .word (mkR4 0x04#5 0#2 rs2 rs1 0#3 rd 0x53#7)
  | .fsgnjnS rd rs1 rs2 => .word (mkR4 0x04#5 0#2 rs2 rs1 1#3 rd 0x53#7)
  | .fsgnjxS rd rs1 rs2 => .word (mkR4 0x04#5 0#2 rs2 rs1 2#3 rd 0x53#7)
  | .fminS rd rs1 rs2 => .word (mkR4 0x05#5 0#2 rs2 rs1 0#3 rd 0x53#7)
  | .fmaxS rd rs1 rs2 => .word (mkR4 0x05#5 0#2 rs2 rs1 1#3 rd 0x53#7)
  | .feqS rd rs1 rs2 => .word (mkR4 0x14#5 0#2 rs2 rs1 2#3 rd 0x53#7)
  | .fltS rd rs1 rs2 => .word (mkR4 0x14#5 0#2 rs2 rs1 1#3 rd 0x53#7)
  | .fleS rd rs1 rs2 => .word (mkR4 0x14#5 0#2 rs2 rs1 0#3 rd 0x53#7)
  | .fclassS rd rs1 => .word (mkR4 0x1c#5 0#2 0#5 rs1 1#3 rd 0x53#7)
  | .fcvtWS rd rs1 rm => .word (mkR4 0x18#5 0#2 0#5 rs1 rm.bits rd 0x53#7)
  | .fcvtWuS rd rs1 rm => .word (mkR4 0x18#5 0#2 1#5 rs1 rm.bits rd 0x53#7)
  | .fcvtSW rd rs1 rm => .word (mkR4 0x1a#5 0#2 0#5 rs1 rm.bits rd 0x53#7)
  | .fcvtSWu rd rs1 rm => .word (mkR4 0x1a#5 0#2 1#5 rs1 rm.bits rd 0x53#7)
  | .fld rd rs1 imm => .word (mkI imm rs1 3#3 rd 0x07#7)
  | .fsd rs2 rs1 imm => .word (mkS imm rs2 rs1 3#3 0x27#7)
  | .fmaddD rd rs1 rs2 rs3 rm => .word (mkR4 rs3 1#2 rs2 rs1 rm.bits rd 0x43#7)
  | .fmsubD rd rs1 rs2 rs3 rm => .word (mkR4 rs3 1#2 rs2 rs1 rm.bits rd 0x47#7)
  | .fnmsubD rd rs1 rs2 rs3 rm => .word (mkR4 rs3 1#2 rs2 rs1 rm.bits rd 0x4b#7)
  | .fnmaddD rd rs1 rs2 rs3 rm => .word (mkR4 rs3 1#2 rs2 rs1 rm.bits rd 0x4f#7)
  | .faddD rd rs1 rs2 rm => .word (mkR4 0x00#5 1#2 rs2 rs1 rm.bits rd 0x53#7)
  | .fsubD rd rs1 rs2 rm => .word (mkR4 0x01#5 1#2 rs2 rs1 rm.bits rd 0x53#7)
  | .fmulD rd rs1 rs2 rm => .word (mkR4 0x02#5 1#2 rs2 rs1 rm.bits rd 0x53#7)
  | .fdivD rd rs1 rs2 rm => .word (mkR4 0x03#5 1#2 rs2 rs1 rm.bits rd 0x53#7)
  | .fsqrtD rd rs1 rm => .word (mkR4 0x0b#5 1#2 0#5 rs1 rm.bits rd 0x53#7)
  | .fsgnjD rd rs1 rs2 => .word (mkR4 0x04#5 1#2 rs2 rs1 0#3 rd 0x53#7)
  | .fsgnjnD rd rs1 rs2 => .word (mkR4 0x04#5 1#2 rs2 rs1 1#3 rd 0x53#7)
  | .fsgnjxD rd rs1 rs2 => .word (mkR4 0x04#5 1#2 rs2 rs1 2#3 rd 0x53#7)
  | .fminD rd rs1 rs2 => .word (mkR4 0x05#5 1#2 rs2 rs1 0#3 rd 0x53#7)
  | .fmaxD rd rs1 rs2 => .word (mkR4 0x05#5 1#2 rs2 rs1 1#3 rd 0x53#7)
  | .feqD rd rs1 rs2 => .word (mkR4 0x14#5 1#2 rs2 rs1 2#3 rd 0x53#7)
  | .fltD rd rs1 rs2 => .word (mkR4 0x14#5 1#2 rs2 rs1 1#3 rd 0x53#7)
  | .fleD rd rs1 rs2 => .word (mkR4 0x14#5 1#2 rs2 rs1 0#3 rd 0x53#7)
  | .fclassD rd rs1 => .word (mkR4 0x1c#5 1#2 0#5 rs1 1#3 rd 0x53#7)
  | .fcvtWD rd rs1 rm => .word (mkR4 0x18#5 1#2 0#5 rs1 rm.bits rd 0x53#7)
  | .fcvtWuD rd rs1 rm => .word (mkR4 0x18#5 1#2 1#5 rs1 rm.bits rd 0x53#7)
  | .fcvtDW rd rs1 rm => .word (mkR4 0x1a#5 1#2 0#5 rs1 rm.bits rd 0x53#7)
  | .fcvtDWu rd rs1 rm => .word (mkR4 0x1a#5 1#2 1#5 rs1 rm.bits rd 0x53#7)
  | .flq rd rs1 imm => .word (mkI imm rs1 4#3 rd 0x07#7)
  | .fsq rs2 rs1 imm => .word (mkS imm rs2 rs1 4#3 0x27#7)
  | .fmaddQ rd rs1 rs2 rs3 rm => .word (mkR4 rs3 3#2 rs2 rs1 rm.bits rd 0x43#7)
  | .fmsubQ rd rs1 rs2 rs3 rm => .word (mkR4 rs3 3#2 rs2 rs1 rm.bits rd 0x47#7)
  | .fnmsubQ rd rs1 rs2 rs3 rm => .word (mkR4 rs3 3#2 rs2 rs1 rm.bits rd 0x4b#7)
  | .fnmaddQ rd rs1 rs2 rs3 rm => .word (mkR4 rs3 3#2 rs2 rs1 rm.bits rd 0x4f#7)
  | .faddQ rd rs1 rs2 rm => .word (mkR4 0x00#5 3#2 rs2 rs1 rm.bits rd 0x53#7)
  | .fsubQ rd rs1 rs2 rm => .word (mkR4 0x01#5 3#2 rs2 rs1 rm.bits rd 0x53#7)
  | .fmulQ rd rs1 rs2 rm => .word (mkR4 0x02#5 3#2 rs2 rs1 rm.bits rd 0x53#7)
  | .fdivQ rd rs1 rs2 rm => .word (mkR4 0x03#5 3#2 rs2 rs1 rm.bits rd 0x53#7)
  | .fsqrtQ rd rs1 rm => .word (mkR4 0x0b#5 3#2 0#5 rs1 rm.bits rd 0x53#7)
  | .fsgnjQ rd rs1 rs2 => .word (mkR4 0x04#5 3#2 rs2 rs1 0#3 rd 0x53#7)
  | .fsgnjnQ rd rs1 rs2 => .word (mkR4 0x04#5 3#2 rs2 rs1 1#3 rd 0x53#7)
  | .fsgnjxQ rd rs1 rs2 => .word (mkR4 0x04#5 3#2 rs2 rs1 2#3 rd 0x53#7)
  | .fminQ rd rs1 rs2 => .word (mkR4 0x05#5 3#2 rs2 rs1 0#3 rd 0x53#7)
  | .fmaxQ rd rs1 rs2 => .word (mkR4 0x05#5 3#2 rs2 rs1 1#3 rd 0x53#7)
  | .feqQ rd rs1 rs2 => .word (mkR4 0x14#5 3#2 rs2 rs1 2#3 rd 0x53#7)
  | .fltQ rd rs1 rs2 => .word (mkR4 0x14#5 3#2 rs2 rs1 1#3 rd 0x53#7)
  | .fleQ rd rs1 rs2 => .word (mkR4 0x14#5 3#2 rs2 rs1 0#3 rd 0x53#7)
  | .fclassQ rd rs1 => .word (mkR4 0x1c#5 3#2 0#5 rs1 1#3 rd 0x53#7)
  | .fcvtWQ rd rs1 rm => .word (mkR4 0x18#5 3#2 0#5 rs1 rm.bits rd 0x53#7)
  | .fcvtWuQ rd rs1 rm => .word (mkR4 0x18#5 3#2 1#5 rs1 rm.bits rd 0x53#7)
  | .fcvtQW rd rs1 rm => .word (mkR4 0x1a#5 3#2 0#5 rs1 rm.bits rd 0x53#7)
  | .fcvtQWu rd rs1 rm => .word (mkR4 0x1a#5 3#2 1#5 rs1 rm.bits rd 0x53#7)
  | .fmvXW rd rs1 => .word (mkR4 0x1c#5 0#2 0#5 rs1 0#3 rd 0x53#7)
  | .fmvWX rd rs1 => .word (mkR4 0x1e#5 0#2 0#5 rs1 0#3 rd 0x53#7)
  | .fcvtSD rd rs1 rm => .word (mkR4 0x08#5 0#2 1#5 rs1 rm.bits rd 0x53#7)
  | .fcvtDS rd rs1 rm => .word (mkR4 0x08#5 1#2 0#5 rs1 rm.bits rd 0x53#7)
  | .fcvtSQ rd rs1 rm => .word (mkR4 0x08#5 0#2 3#5 rs1 rm.bits rd 0x53#7)
  | .fcvtQS rd rs1 rm => .word (mkR4 0x08#5 3#2 0#5 rs1 rm.bits rd 0x53#7)
  | .fcvtDQ rd rs1 rm => .word (mkR4 0x08#5 1#2 3#5 rs1 rm.bits rd 0x53#7)
  | .fcvtQD rd rs1 rm => .word (mkR4 0x08#5 3#2 1#5 rs1 rm.bits rd 0x53#7)
  | .cAddi4spn rd imm => .half (mkCIW 0#3 imm rd 0#2)
  | .cFld rd rs1 imm => .half (mkCLD 1#3 imm rs1 rd 0#2)
  | .cLw rd rs1 imm => .half (mkCLW 2#3 imm rs1 rd 0#2)
  | .cFlw rd rs1 imm => .half (mkCLW 3#3 imm rs1 rd 0#2)
  | .cFsd rs2 rs1 imm => .half (mkCLD 5#3 imm rs1 rs2 0#2)
  | .cSw rs2 rs1 imm => .half (mkCLW 6#3 imm rs1 rs2 0#2)
  | .cFsw rs2 rs1 imm => .half (mkCLW 7#3 imm rs1 rs2 0#2)
  | .cNop imm => .half (mkCI 0#3 imm 0#5 1#2)
  | .cAddi rd imm => .half (mkCI 0#3 imm rd 1#2)
  | .cJal off => .half (mkCJ 1#3 off 1#2)
  | .cLi rd imm => .half (mkCI 2#3 imm rd 1#2)
  | .cAddi16sp imm => .half (mkCI16SP 3#3 imm 2#5 1#2)
  | .cLui rd imm => .half (mkCI 3#3 imm rd 1#2)
  | .cSrli rd shamt => .half (mkCBi 4#3 0#1 0#2 rd shamt 1#2)
  | .cSrai rd shamt => .half (mkCBi 4#3 0#1 1#2 rd shamt 1#2)
  | .cAndi rd imm => .half (mkCBi 4#3 (imm.extractLsb' 5 1) 2#2 rd (imm.extractLsb' 0 5) 1#2)
  | .cSub rd rs2 => .half (mkCA 0x23#6 rd 0#2 rs2 1#2)
  | .cXor rd rs2 => .half (mkCA 0x23#6 rd 1#2 rs2 1#2)
  | .cOr rd rs2 => .half (mkCA 0x23#6 rd 2#2 rs2 1#2)
  | .cAnd rd rs2 => .half (mkCA 0x23#6 rd 3#2 rs2 1#2)
  | .cJ off => .half (mkCJ 5#3 off 1#2)
  | .cBeqz rs1 off => .half (mkCB 6#3 off rs1 1#2)
  | .cBnez rs1 off => .half (mkCB 7#3 off rs1 1#2)
  | .cSlli rd shamt => .half (mkCI 0#3 (0#1 ++ shamt) rd 2#2)
  | .cFldsp rd imm => .half (mkCIDSP 1#3 imm rd 2#2)
  | .cLwsp rd imm => .half (mkCIWSP 2#3 imm rd 2#2)
  | .cFlwsp rd imm => .half (mkCIWSP 3#3 imm rd 2#2)
  | .cJr rs1 => .half (mkCR 8#4 rs1 0#5 2#2)
  | .cMv rd rs2 => .half (mkCR 8#4 rd rs2 2#2)
  | .cEbreak => .half 0x9002#16
  | .cJalr rs1 => .half (mkCR 9#4 rs1 0#5 2#2)
  | .cAdd rd rs2 => .half (mkCR 9#4 rd rs2 2#2)
  | .cFsdsp rs2 imm => .half (mkCSSD 5#3 imm rs2 2#2)
  | .cSwsp rs2 imm => .half (mkCSSW 6#3 imm rs2 2#2)
  | .cFswsp rs2 imm => .half (mkCSSW 7#3 imm rs2 2#2)
/-- The instruction's bits, a parcel zero-extended: the `info` of an IllegalInstruction it raises (R712). -/
def Instr.bits (i : Instr) : Word := i.encoded.bits

/-- The instruction's length in bytes (R120). -/
def Instr.len (i : Instr) : Nat := i.encoded.len

/-- The bytes of an instruction, in memory order. -/
def encode (i : Instr) : List Byte := i.encoded.bytes

end Sys2Proof
end

