-- ==== Sys2Proof/Machine/State.lean ====
section
/-! DEFINITION. The state of the machine as plain data: the core's own registers (10_state.md R40 to R57), and beside them
the environment the core talks to (00_scope.md R10 to R20) and the embedder that acts between steps (R59), both held as
data so that a step is a function of the state. -/
namespace Sys2Proof.Machine

/-! ### Traps and step outcomes (60_exceptions.md) -/

/-- The six trap causes the core raises itself (R711). -/
inductive Cause where
  | instructionAddressMisaligned
  | illegalInstruction
  | breakpoint
  | loadAddressMisaligned
  | storeAddressMisaligned
  | environmentCall
  deriving DecidableEq, Repr

/-- A trap value: raised by the core, or an environment's `EnvTrap(t)` forwarded unchanged (R20). The opaque `t` is a
number: PRESUMED (log 19), safe. -/
inductive Trap where
  | core (cause : Cause) (info : Word)
  | env (t : Nat)
  deriving DecidableEq, Repr

/-- What the environment answers to `Trap` (R19, R700). -/
inductive TrapAnswer where
  | continues | halts
  deriving DecidableEq, Repr

/-- How a step ended (R700). -/
inductive StepOutcome where
  | advanced
  | trapped (t : Trap)
  | halted (t : Trap)
  deriving DecidableEq, Repr

/-! ### The requests of the core and the answers of the environment (00_scope.md section 5) -/

/-- The access-kind hint of a delegated CSR access (R351). -/
inductive AccessKind where
  | readOnly | writeOnly | readWrite
  deriving DecidableEq, Repr

/-- What a `Charge` is for (R17, R706). An instruction's category is an `instr n`, never `fetch` itself, which R17 and 92 D28
leave open: DESIGN CHOICE (log 8), unsafe. -/
inductive Category where
  | fetch
  | instr (n : Nat)
  deriving DecidableEq, Repr

/-- One request of the core (R11 to R19), as it is logged. `Enabled` is no member: its requests are not observable
(R702). -/
inductive Request where
  | charge (c : Category)
  | readWord (a : Word)
  | writeWord (a v : Word) (be : BitVec 4)
  | loadReserved (a : Word)
  | storeReserved (a v : Word)
  | csrRead (n : BitVec 12) (k : AccessKind)
  | csrWrite (n : BitVec 12) (v : Word) (k : AccessKind)
  | sqrtMode (fmt : Fmt)
  | trap (t : Trap)
  deriving DecidableEq, Repr

/-- The environment's scripted answer to one request. `usual` is the answer the environment's own data gives; every other
constructor overrides it (a device's read value, a fault, a spurious SC failure). DESIGN CHOICE (log 1): safe. -/
inductive Reply where
  /-- The answer of `Env`'s data. -/
  | usual
  /-- `EnvTrap(t)`. -/
  | envTrap (t : Nat)
  /-- The word read, for a read of memory or of a delegated CSR (R90, R350). -/
  | word (v : Word)
  /-- `StoreReservedWord` fails although the word is reserved (R336). -/
  | scFail
  /-- The answer to `SqrtMode` (R18). -/
  | sqrt (m : SqrtMode)
  /-- The answer to `Trap` (R19). -/
  | answer (a : TrapAnswer)
  deriving DecidableEq, Repr

/-! ### The core -/

/-- Every piece of architectural state the core owns (R57). -/
structure Cpu where
  /-- x1 to x31, x1 first; x0 is no storage (R40, R41). -/
  x : Vector Word 31
  /-- The address of the next instruction, any 32-bit value (R45, R46). -/
  pc : Word
  /-- FCSR: frm in bits 7:5, NV DZ OF UF NX in bits 4:0 (R52). Unreachable when FLEN is `none` (R356). -/
  fcsr : BitVec 8
  /-- f0 to f31, each in the low FLEN bits of a 128-bit slot whose other bits are 0 (R49). DESIGN CHOICE (log 5): safe. -/
  f : Vector (BitVec 128) 32
  deriving DecidableEq, Repr

/-! ### The environment -/

/-- Values by number in one canonical form: numbers strictly rising, no value 0; a number not listed reads 0. -/
abbrev Store (w : Nat) := List (Nat × BitVec w)

/-- Memory, by byte address (R80): a list of `Host.Cell`. -/
abbrev Memory := Store 8

/-- The delegated CSRs the environment keeps, by number (R350). -/
abbrev CsrFile := Store 32

/-- The environment: what the core's rules read of it, and the record of what the core asked in this step. -/
structure Env where
  /-- The memory behind `ReadWord` and `WriteWord` (R80). -/
  mem : Memory
  /-- The reservation slot, the reserved word's address or none (R58). -/
  reservation : Option Word
  /-- The gates of the step (R15, R702). -/
  gates : Gates
  /-- The usual answers to `SqrtMode` (R18). -/
  sqrtModes : SqrtModes
  /-- The usual answers to `CsrRead`, and what `CsrWrite` writes (R16, R350). -/
  csrs : CsrFile
  /-- The usual answer to `Trap` (R19). -/
  onTrap : TrapAnswer
  /-- The answers to the next requests, in order; `usual` when it runs out. -/
  replies : List Reply
  /-- The requests of the current or last step, in order (R92). -/
  requests : List Request
  deriving DecidableEq, Repr

/-! ### The embedder -/

/-- A CPU image (R59): what an embedder saves of a core and restores into one. It is width-specific: its f registers have the
FLEN bits of the instance it was taken from (R802). -/
structure CpuImage where
  /-- FLEN of the instance the image was taken from. -/
  flen : Flen
  /-- x1 to x31, x1 first. -/
  x : Vector Word 31
  pc : Word
  fcsr : BitVec 8
  /-- f0 to f31, FLEN bits each. -/
  f : Vector (BitVec flen.bits) 32
  deriving DecidableEq, Repr

/-- What the embedder, or another agent of the environment, may do between steps (R59, R58, R718, R801). -/
inductive EmbedderAction where
  /-- Restore a CPU image, as given (R59), into an instance of its FLEN (R802). -/
  | restore (image : CpuImage)
  /-- Other gates from this step on (R15, R806). -/
  | setGates (g : Gates)
  /-- Other usual `SqrtMode` answers (R18). -/
  | setSqrtModes (m : SqrtModes)
  /-- Another usual answer to `Trap` (R19). -/
  | setTrapAnswer (a : TrapAnswer)
  /-- A write by another hart or by DMA; it invalidates the reservation of its word (R58, R335). -/
  | writeMemory (a v : Word) (be : BitVec 4)
  /-- The environment drops the reservation (R58). -/
  | dropReservation
  /-- The environment changes a delegated CSR (R350). -/
  | setCsr (n : BitVec 12) (v : Word)
  /-- The answers to the coming requests. -/
  | setReplies (r : List Reply)
  deriving DecidableEq, Repr

/-- The whole state: the configuration of the instance, the core, the environment, the embedder's schedule and the last
step's outcome. -/
structure State where
  /-- FLEN and C_IMPLEMENTED; nothing writes it (R56, R802). -/
  cfg : Config
  cpu : Cpu
  env : Env
  /-- What the embedder does before each coming step: the head before the next one. DESIGN CHOICE (log 12): safe. -/
  schedule : List (List EmbedderAction)
  /-- The outcome of the last step; none before the first (R700). -/
  outcome : Option StepOutcome
  deriving DecidableEq, Repr

/-- Why the machine stops with a fault. It has no constructor: every abnormal event of this core is a trap whose delivery
the spec describes (R709, R710), so a step always has a next state, and nothing raises a fault. -/
inductive Fault where
  deriving DecidableEq, Repr

/-- Why the model refuses an instruction. -/
inductive Refusal where
  /-- No meaning written yet. Raised by an arm of `exec` only; safe, since a refused step proves nothing. No arm raises it
  now. -/
  | notModelled (mnemonic : String)
  deriving DecidableEq, Repr

/-! ### The machine at instantiation (70_reset_and_hazards.md) -/

/-- The core's registers at instantiation. The spec states no value but x0's (R800): all zero, DESIGN CHOICE (log 3),
unsafe. -/
def Cpu.reset : Cpu where
  x := Vector.replicate 31 0
  pc := 0
  fcsr := 0
  f := Vector.replicate 32 0

/-- The environment at instantiation: no memory written, nothing reserved, every extension on, the `SqrtMode` defaults of
R8, no delegated CSR written, no scripted answer. DESIGN CHOICE (logs 2, 4 and 6), unsafe. -/
def Env.reset : Env where
  mem := []
  reservation := none
  gates := { m := true, a := true, f := true, d := true, q := true, c := true }
  sqrtModes := { s := .accurate, d := .accurate, q := .fast }
  csrs := []
  onTrap := .continues
  replies := []
  requests := []

/-- The machine at instantiation (R800, R801), with FLEN = 128 and C implemented: DESIGN CHOICE (log 4), unsafe. -/
def State.reset : State where
  cfg := { flen := .w128, cImplemented := true }
  cpu := .reset
  env := .reset
  schedule := []
  outcome := none

end Sys2Proof.Machine
end

