-- ==== Sys2Proof/Machine/Flags.lean ====
section
/-! DEFINITION. FCSR: the accrued flags, the rounding mode and the three CSR views of them (10_state.md section 4,
43_zicsr_fence.md section 2, 44_fp_numerics.md R407, R416). -/
namespace Sys2Proof.Machine

/-! The flags by their bit in FCSR[4:0] (R52). -/

/-- Invalid operation. -/
def flagNV : BitVec 5 := 0b10000#5
/-- Divide by zero. -/
def flagDZ : BitVec 5 := 0b01000#5
/-- Overflow. -/
def flagOF : BitVec 5 := 0b00100#5
/-- Underflow. -/
def flagUF : BitVec 5 := 0b00010#5
/-- Inexact. -/
def flagNX : BitVec 5 := 0b00001#5
/-- The empty mask. -/
def noFlags : BitVec 5 := 0b00000#5

/-- `m` if the condition holds, else the empty mask. -/
def flagIf (c : Bool) (m : BitVec 5) : BitVec 5 := if c then m else noFlags

/-- FCSR[4:0] (R53). -/
def fflagsOf (fcsr : BitVec 8) : BitVec 5 := fcsr.extractLsb' 0 5

/-- FCSR[7:5] (R53). -/
def frmOf (fcsr : BitVec 8) : BitVec 3 := fcsr.extractLsb' 5 3

/-- `FCSR.fflags |= m` (R416). -/
def accrue (fcsr : BitVec 8) (m : BitVec 5) : BitVec 8 := fcsr ||| m.setWidth 8

/-- The mode a 3-bit value names; 101, 110 and 111 name none (R55). -/
def modeOfBits : BitVec 3 → Option RoundingMode
  | 0b000#3 => some .rne
  | 0b001#3 => some .rtz
  | 0b010#3 => some .rdn
  | 0b011#3 => some .rup
  | 0b100#3 => some .rmm
  | _ => none

/-- `ResolveRM` (R407): a static mode, or the one frm holds; none when frm is not a mode. -/
def resolveRm (fcsr : BitVec 8) : Rm → Option RoundingMode
  | .mode m => some m
  | .dyn => modeOfBits (frmOf fcsr)

/-- The three CSRs the core owns (R350). -/
inductive FpCsr where
  | fflags | frm | fcsr
  deriving DecidableEq, Repr

/-- The FP CSR a number names; every other number is delegated (R350). -/
def fpCsrOf : BitVec 12 → Option FpCsr
  | 0x001#12 => some .fflags
  | 0x002#12 => some .frm
  | 0x003#12 => some .fcsr
  | _ => none

/-- `FpCsrRead` (R353, R354, R355). -/
def fpCsrRead (fcsr : BitVec 8) : FpCsr → Word
  | .fflags => (fflagsOf fcsr).setWidth 32
  | .frm => (frmOf fcsr).setWidth 32
  | .fcsr => fcsr.setWidth 32

/-- The FCSR that `FpCsrWrite` schedules (R353, R354, R355). -/
def fpCsrWrite (fcsr : BitVec 8) (v : Word) : FpCsr → BitVec 8
  | .fflags => (frmOf fcsr ++ v.extractLsb' 0 5).cast rfl
  | .frm => (v.extractLsb' 0 3 ++ fflagsOf fcsr).cast rfl
  | .fcsr => v.extractLsb' 0 8

end Sys2Proof.Machine
end

