-- ==== Sys2Proof/Machine/Memory.lean ====
section
/-! DEFINITION. The environment's memory and CSR storage as canonical lists, and the one place that decides the byte order
(20_memory.md R80 to R83). -/
namespace Sys2Proof.Machine

/-- The value at a number; 0 when it is not listed. For memory that is what a byte nothing has written reads as: DESIGN
CHOICE (log 2), unsafe. -/
def Store.read {w : Nat} : Store w → Nat → BitVec w
  | [], _ => 0#w
  | (k, u) :: m, a => if k = a then u else Store.read m a

/-- Writes a value, keeping the canonical form: writing 0 removes the entry. -/
def Store.write {w : Nat} : Store w → Nat → BitVec w → Store w
  | [], a, v => if v = 0#w then [] else [(a, v)]
  | (k, u) :: m, a, v =>
    if a < k then (if v = 0#w then (k, u) :: m else (a, v) :: (k, u) :: m)
    else if a = k then (if v = 0#w then m else (a, v) :: m)
    else (k, u) :: Store.write m a v

/-- The canonical form, over numbers below `bound`. -/
abbrev Store.wf {w : Nat} (bound : Nat) (m : Store w) : Prop :=
  m.Pairwise (fun c d => c.1 < d.1) ∧ ∀ c ∈ m, c.1 < bound ∧ c.2 ≠ 0#w

/-- The canonical form of memory: addresses strictly rising and below 2^32, no listed byte equal to what an unlisted
address reads as. -/
abbrev Memory.wf (m : Memory) : Prop := Store.wf (2 ^ 32) m

/-- The canonical form of the delegated CSRs: 12-bit numbers (R80). -/
abbrev CsrFile.wf (m : CsrFile) : Prop := Store.wf (2 ^ 12) m

/-- The byte at an address. -/
def Memory.readByte (m : Memory) (a : Word) : Byte := Store.read m a.toNat

/-- Stores one byte. -/
def Memory.writeByte (m : Memory) (a : Word) (v : Byte) : Memory := Store.write m a.toNat v

/-- Byte lane `k` of a word (R83). -/
def lane (w : Word) (k : Nat) : Byte := w.extractLsb' (8 * k) 8

/-- The word whose lane 0 is at address `a`: little-endian (R82, R83). -/
def Memory.readWord (m : Memory) (a : Word) : Word :=
  (m.readByte (a + 3#32) ++ m.readByte (a + 2#32) ++ m.readByte (a + 1#32) ++ m.readByte a).cast rfl

/-- Stores lane `k` of `v` when its byte enable is set (R12). -/
def Memory.writeLane (m : Memory) (a v : Word) (be : BitVec 4) (k : Nat) : Memory :=
  if be.getLsbD k then m.writeByte (a + BitVec.ofNat 32 k) (lane v k) else m

/-- Stores the enabled lanes of a word at address `a` (R12). -/
def Memory.writeWord (m : Memory) (a v : Word) (be : BitVec 4) : Memory :=
  (((m.writeLane a v be 0).writeLane a v be 1).writeLane a v be 2).writeLane a v be 3

end Sys2Proof.Machine
end

