-- ==== Sys2Proof/Machine/Operands.lean ====
section
/-! DEFINITION. The operand forms: the two register files, NaN boxing, the immediates and the access sizes (10_state.md,
30_encoding.md section 3, 44_fp_numerics.md section 3, 48_compressed.md R601). -/
namespace Sys2Proof

/-! ### Floating-point formats (R402) -/

/-- w, the width of a format (R402). -/
def Fmt.width : Fmt → Nat
  | .s => 32
  | .d => 64
  | .q => 128

/-- e, the exponent bits (R402). -/
def Fmt.expBits : Fmt → Nat
  | .s => 8
  | .d => 11
  | .q => 15

/-- m, the fraction bits (R402). -/
def Fmt.fracBits : Fmt → Nat
  | .s => 23
  | .d => 52
  | .q => 112

end Sys2Proof

namespace Sys2Proof.Machine

/-! ### Integer registers -/

/-- x[r]; x0 reads as zero (R40, R41). -/
def Cpu.readX (c : Cpu) (r : XReg) : Word :=
  if r = 0#5 then 0#32 else c.x[r.toNat - 1]'(by have := r.isLt; omega)

/-- x[r] <- v; a write to x0 is dropped (R41). -/
def Cpu.writeX (c : Cpu) (r : XReg) (v : Word) : Cpu :=
  if r = 0#5 then c else { c with x := c.x.set (r.toNat - 1) v (by have := r.isLt; omega) }

/-- The register a 3-bit field names: 8 + field (R601). -/
def creg (r : CReg) : BitVec 5 := (0b01#2 ++ r).cast rfl

/-- The link register C.JAL and C.JALR imply (R601). -/
def linkReg : XReg := 1#5

/-- The stack pointer the compressed stack forms imply (R601). -/
def spReg : XReg := 2#5

/-! ### Immediates (R126 to R132) -/

/-- sext_32. -/
def sext {n : Nat} (v : BitVec n) : Word := v.signExtend 32

/-- zext_32. -/
def zext {n : Nat} (v : BitVec n) : Word := v.setWidth 32

/-- `v` followed by `k` zero bits: an immediate whose low bits the encoding fixes at zero. -/
def scaled {n : Nat} (k : Nat) (v : BitVec n) : BitVec (n + k) := v ++ 0#k

/-- imm_U from imm_U[31:12] (R129). -/
def immU (v : BitVec 20) : Word := scaled 12 v

/-- imm_B from imm_B[12:1] (R128). -/
def offsetB (v : BitVec 12) : Word := sext (scaled 1 v)

/-- imm_J from imm_J[20:1] (R130). -/
def offsetJ (v : BitVec 20) : Word := sext (scaled 1 v)

/-- nzimm of C.LUI: its 6 bits sign-extended to imm_U[31:12] (R617). -/
def immCLui (v : BitVec 6) : BitVec 20 := v.signExtend 20

/-! ### Memory addresses and sizes -/

/-- The access sizes of `MemRead` and `MemWrite`, n = 1, 2, 4, 8 and 16 bytes (R84, R85). -/
inductive Size where
  | byte | half | word | double | quad
  deriving DecidableEq, Repr

/-- n. -/
def Size.bytes : Size → Nat
  | .byte => 1
  | .half => 2
  | .word => 4
  | .double => 8
  | .quad => 16

/-- The alignment the access needs (R86): none, 2 bytes, and 4 bytes for every larger one. -/
def Size.aligned : Size → Word → Bool
  | .byte, _ => true
  | .half, a => a.extractLsb' 0 1 == 0#1
  | .word, a | .double, a | .quad, a => a.extractLsb' 0 2 == 0#2

/-- The aligned word an address lies in, `a & ~3` (R81). -/
def wordAddr (a : Word) : Word := a &&& 0xFFFFFFFC#32

/-- A byte's lane in its word, `a[1:0]` (R83). -/
def laneOf (a : Word) : Nat := (a.extractLsb' 0 2).toNat

/-- The effective address `x[rs1] + imm` (R204, R99). -/
def effAddr (c : Cpu) (rs1 : XReg) (imm : Word) : Word := c.readX rs1 + imm

/-! ### Floating-point registers -/

/-- The access size of a format's load and store (R432). -/
def fmtSize : Fmt → Size
  | .s => .word
  | .d => .double
  | .q => .quad

/-- The canonical NaN of a format (R404). -/
def canonicalNaN : (fmt : Fmt) → BitVec fmt.width
  | .s => 0x7FC00000#32
  | .d => 0x7FF8000000000000#64
  | .q => 0x7FFF8000000000000000000000000000#128

/-- The pattern whose low `n` bits are ones. -/
def ones (n : Nat) : BitVec 128 := (BitVec.allOnes n).setWidth 128

/-- f[r], the FLEN bits of the register, zero-extended. -/
def Cpu.readF (c : Cpu) (r : FReg) : BitVec 128 := c.f[r.toNat]'r.isLt

/-- f[r] <- v, for a `v` that is zero above bit FLEN-1. -/
def Cpu.writeF (c : Cpu) (r : FReg) (v : BitVec 128) : Cpu := { c with f := c.f.set r.toNat v r.isLt }

/-- The bits [FLEN-1:w], which a boxed value has all ones (R50). -/
def boxMask (flen : Flen) (fmt : Fmt) : BitVec 128 := ones flen.bits &&& ~~~(ones fmt.width)

/-- The pattern of a width-w value in an FLEN-bit register: `{(FLEN - w){1}, v}` (R406). -/
def boxed (flen : Flen) (fmt : Fmt) (v : BitVec fmt.width) : BitVec 128 :=
  (v.setWidth 128 &&& ones flen.bits) ||| boxMask flen fmt

/-- The NaN-box check on a register's pattern (R405). With w = FLEN there is no bit to check. -/
def unboxed (flen : Flen) (fmt : Fmt) (p : BitVec 128) : BitVec fmt.width :=
  if p &&& boxMask flen fmt = boxMask flen fmt then p.setWidth fmt.width else canonicalNaN fmt

/-- F_w(r), the checked operand read (R405). -/
def readFp (flen : Flen) (c : Cpu) (fmt : Fmt) (r : FReg) : BitVec fmt.width := unboxed flen fmt (c.readF r)

/-- f[r][w-1:0], the raw read of the moves and stores (R432, R433). -/
def readRaw (c : Cpu) (fmt : Fmt) (r : FReg) : BitVec fmt.width := (c.readF r).setWidth fmt.width

end Sys2Proof.Machine
end

