-- ==== Sys2Proof/Machine/Ops.lean ====
section
/-! DEFINITION. The shared operations: requests to the environment and its answers (00_scope.md section 5), memory and CSR
accesses (20_memory.md, 42_atomic.md, 43_zicsr_fence.md), the commit of an instruction and the delivery of a trap
(60_exceptions.md). -/
namespace Sys2Proof.Machine

/-! ### Attempts -/

/-- A part of a step: it gives a value, or ends the step with a trap (R9 `raise`); either way it leaves the environment
as the requests answered so far left it (R709). -/
inductive Attempt (α : Type) where
  | ok (v : α) (e : Env)
  | trap (t : Trap) (e : Env)
  deriving Repr

/-- Goes on with the value, or stops at the trap. -/
def Attempt.andThen {α β : Type} : Attempt α → (α → Env → Attempt β) → Attempt β
  | .ok v e, k => k v e
  | .trap t e, _ => .trap t e

/-- `raise Cause(info)` (R9). -/
def raise {α : Type} (cause : Cause) (info : Word) (e : Env) : Attempt α := .trap (.core cause info) e

/-- Goes on with the value of an option, or raises IllegalInstruction with the instruction's bits (R712). -/
def orIllegal {α : Type} (inst : Word) (o : Option α) (e : Env) : Attempt α :=
  match o with
  | some v => .ok v e
  | none => raise .illegalInstruction inst e

/-! ### Requests

A request that is answered changes of the environment's data what its rule in R11 to R19 says, and nothing else: PRESUMED
(log 13), unsafe. -/

/-- The environment's answer to the next request. -/
def Env.nextReply (e : Env) : Reply := e.replies.headD .usual

/-- The environment after it has received a request: the request is logged and one scripted answer used up. -/
def Env.issue (e : Env) (q : Request) : Env := { e with replies := e.replies.tail, requests := e.requests ++ [q] }

/-- A request that can fail: `EnvTrap(t)` is raised as `Env(t)` and changes nothing of the environment's data (R10, R20):
PRESUMED (log 13), unsafe. -/
def request {α : Type} (q : Request) (k : Reply → Env → Attempt α) (e : Env) : Attempt α :=
  match e.nextReply with
  | .envTrap t => .trap (.env t) (e.issue q)
  | r => k r (e.issue q)

/-- A read's answer: the word the environment's data gives, unless the script gives another (R90). -/
def Reply.wordOr (usual : Word) : Reply → Word
  | .word v => v
  | _ => usual

/-- `Charge(cat)` (R17). -/
def charge (c : Category) (e : Env) : Attempt Unit := request (.charge c) (fun _ e => .ok () e) e

/-- `ReadWord(a)` (R11). -/
def readWord (a : Word) (e : Env) : Attempt Word :=
  request (.readWord a) (fun r e => .ok (r.wordOr (e.mem.readWord a)) e) e

/-- A write to the word at `a` invalidates the reservation of that word (R12, R58, R335). -/
def Env.invalidate (e : Env) (a : Word) : Env :=
  if e.reservation = some a then { e with reservation := none } else e

/-- The environment after a write of the enabled lanes of the word at `a` (R12). -/
def Env.store (e : Env) (a v : Word) (be : BitVec 4) : Env :=
  { e.invalidate a with mem := e.mem.writeWord a v be }

/-- `WriteWord(a, v, be)` (R12). -/
def writeWord (a v : Word) (be : BitVec 4) (e : Env) : Attempt Unit :=
  request (.writeWord a v be) (fun _ e => .ok () (e.store a v be)) e

/-- `LoadReservedWord(a)` (R13): the word at `a` becomes the reservation. -/
def loadReserved (a : Word) (e : Env) : Attempt Word :=
  request (.loadReserved a) (fun r e => .ok (r.wordOr (e.mem.readWord a)) { e with reservation := some a }) e

/-- `StoreReservedWord(a, v)` (R14): it succeeds only if `a` is reserved, and the environment may still let it fail
(R336); either way the reservation is cleared. True is success. DESIGN CHOICE (log 14): safe. -/
def storeReserved (a v : Word) (e : Env) : Attempt Bool :=
  request (.storeReserved a v) (fun r e =>
    if e.reservation = some a ∧ r ≠ .scFail then .ok true { e.store a v 0b1111#4 with reservation := none }
    else .ok false { e with reservation := none }) e

/-- `CsrRead(n, k)` (R16), of a delegated CSR: DESIGN CHOICE (log 6), unsafe. -/
def csrRead (n : BitVec 12) (k : AccessKind) (e : Env) : Attempt Word :=
  request (.csrRead n k) (fun r e => .ok (r.wordOr (Store.read e.csrs n.toNat)) e) e

/-- The environment after a delegated CSR is set. -/
def Env.setCsr (e : Env) (n : BitVec 12) (v : Word) : Env := { e with csrs := Store.write e.csrs n.toNat v }

/-- `CsrWrite(n, v, k)` (R16), of a delegated CSR: DESIGN CHOICE (log 6), unsafe. -/
def csrWrite (n : BitVec 12) (v : Word) (k : AccessKind) (e : Env) : Attempt Unit :=
  request (.csrWrite n v k) (fun _ e => .ok () (e.setCsr n v)) e

/-- The usual `SqrtMode` answer for a format. -/
def SqrtModes.get (m : SqrtModes) : Fmt → SqrtMode
  | .s => m.s
  | .d => m.d
  | .q => m.q

/-- `SqrtMode(w)` (R18); it cannot fail: DEDUCED (log 16), unsafe. -/
def sqrtMode (fmt : Fmt) (e : Env) : Attempt SqrtMode :=
  match e.nextReply with
  | .sqrt m => .ok m (e.issue (.sqrtMode fmt))
  | _ => .ok (SqrtModes.get e.sqrtModes fmt) (e.issue (.sqrtMode fmt))

/-! ### Data accesses (20_memory.md section 3) -/

/-- Reads `n` words in ascending address order (R88). -/
def readWords : Nat → Word → Env → Attempt (List Word)
  | 0, _, e => .ok [] e
  | n + 1, a, e => (readWord a e).andThen fun w e => (readWords n (a + 4#32) e).andThen fun ws e => .ok (w :: ws) e

/-- Words as one value, the first least significant (R84). -/
def joinWords : List Word → BitVec 128
  | [] => 0#128
  | w :: ws => w.setWidth 128 ||| (joinWords ws <<< 32)

/-- Writes words in ascending address order, none after a trap and none undone (R88). -/
def writeWords : List Word → Word → Env → Attempt Unit
  | [], _, e => .ok () e
  | w :: ws, a, e => (writeWord a w 0b1111#4 e).andThen fun _ e => writeWords ws (a + 4#32) e

/-- The low `n` words of a value, the least significant first (R85). -/
def splitWords : Nat → BitVec 128 → List Word
  | 0, _ => []
  | n + 1, v => v.setWidth 32 :: splitWords n (v >>> 32)

/-- `MemRead(addr, n)` (R84), the value zero-extended. -/
def memRead (sz : Size) (addr : Word) (e : Env) : Attempt (BitVec 128) :=
  if sz.aligned addr then
    match sz with
    | .byte | .half | .word =>
      (readWord (wordAddr addr) e).andThen fun w e =>
        .ok (((w >>> (8 * laneOf addr)).setWidth (8 * sz.bytes)).setWidth 128) e
    | .double | .quad => (readWords (sz.bytes / 4) addr e).andThen fun ws e => .ok (joinWords ws) e
  else raise .loadAddressMisaligned addr e

/-- The byte enable of a store of `n` bytes at an address (R85). -/
def byteEnable (sz : Size) (addr : Word) : BitVec 4 := BitVec.ofNat 4 (2 ^ sz.bytes - 1) <<< laneOf addr

/-- The data word of a store of at most a word (R85): the value in its lanes, 0 elsewhere. -/
def storeData (sz : Size) (addr : Word) (v : BitVec 128) : Word :=
  ((v.setWidth (8 * sz.bytes)).setWidth 32) <<< (8 * laneOf addr)

/-- `MemWrite(addr, n, v)` (R85). -/
def memWrite (sz : Size) (addr : Word) (v : BitVec 128) (e : Env) : Attempt Unit :=
  if sz.aligned addr then
    match sz with
    | .byte | .half | .word => writeWord (wordAddr addr) (storeData sz addr v) (byteEnable sz addr) e
    | .double | .quad => writeWords (splitWords (sz.bytes / 4) v) addr e
  else raise .storeAddressMisaligned addr e

/-! ### Scheduled writes and their commit (R707, R708) -/

/-- The writes an instruction schedules (R707). -/
structure Writes where
  x : Option (XReg × Word) := none
  f : Option (FReg × BitVec 128) := none
  /-- A CSR instruction's new FCSR. -/
  fcsr : Option (BitVec 8) := none
  /-- The flags ORed into FCSR (R416). -/
  flags : BitVec 5 := noFlags
  /-- The target of a jump or taken branch. -/
  pc : Option Word := none
  deriving DecidableEq, Repr

/-- The core after the writes are applied, the pc at the target or past the instruction (R708). -/
def Cpu.apply (c : Cpu) (len : Nat) (w : Writes) : Cpu :=
  let c1 := match w.x with
    | some (r, v) => c.writeX r v
    | none => c
  let c2 := match w.f with
    | some (r, v) => c1.writeF r v
    | none => c1
  { c2 with
    fcsr := accrue (w.fcsr.getD c.fcsr) w.flags
    pc := w.pc.getD (c.pc + BitVec.ofNat 32 len) }

/-- The step retires: the writes are committed and it answers `Advanced` (R708). -/
def commit (len : Nat) (w : Writes) (s : State) : State :=
  { s with cpu := s.cpu.apply len w, outcome := some .advanced }

/-! ### Taking an exception (60_exceptions.md section 2) -/

/-- The RISC-V code of a cause, for an embedder that wants numbers (R711, 92 D7). -/
def Cause.code : Cause → Nat
  | .instructionAddressMisaligned => 0
  | .illegalInstruction => 2
  | .breakpoint => 3
  | .loadAddressMisaligned => 4
  | .storeAddressMisaligned => 6
  | .environmentCall => [8, 9, 11].getD Config.ecallCode.val 8

/-- The environment's answer to `Trap` (R19, R710). -/
def Env.trapAnswer (e : Env) : TrapAnswer :=
  match e.nextReply with
  | .answer a => a
  | _ => e.onTrap

/-- The outcome of a step that traps (R700). -/
def outcomeOf (t : Trap) : TrapAnswer → StepOutcome
  | .continues => .trapped t
  | .halts => .halted t

/-- Taking an exception: the step is aborted, so no register changes and the pc stays (R709); `Trap` is called once, and
its answer is the step's outcome (R710). Nothing is saved and the pc goes nowhere (R716). -/
def deliver (t : Trap) (s : State) : State :=
  { s with env := s.env.issue (.trap t), outcome := some (outcomeOf t s.env.trapAnswer) }

/-- The CPU image an embedder saves between steps (R59). -/
def State.image (s : State) : CpuImage where
  flen := s.cfg.flen
  x := s.cpu.x
  pc := s.cpu.pc
  fcsr := s.cpu.fcsr
  f := s.cpu.f.map (·.setWidth s.cfg.flen.bits)

/-- The core an image holds: every value as given (R59). -/
def CpuImage.toCpu (image : CpuImage) : Cpu where
  x := image.x
  pc := image.pc
  fcsr := image.fcsr
  f := image.f.map (·.setWidth 128)

/-- Returning from one: the embedder restores a CPU image between steps; there is no trap-return instruction (R716, R59).
An image restores only into an instance of the FLEN it was taken at (R802). Into an instance of another FLEN it does not
restore: that this leaves the core as it is, is DEDUCED (log 23), unsafe. -/
def restoreImage (image : CpuImage) (s : State) : State :=
  if image.flen = s.cfg.flen then { s with cpu := image.toCpu } else s

/-- The end of an instruction's execution: commit, or delivery of the trap (R708, R709). -/
def finish (len : Nat) (a : Attempt Writes) (s : State) : Host.Outcome State Fault Refusal :=
  match a with
  | .ok w e => .next (commit len w { s with env := e })
  | .trap t e => .next (deliver t { s with env := e })

/-! ### The shapes of the instructions -/

/-- An instruction that makes no request and cannot trap. -/
def retire (len : Nat) (w : Writes) (s : State) : Host.Outcome State Fault Refusal := finish len (.ok w s.env) s

/-- x[rd] <- v (R200). -/
def writeReg (len : Nat) (rd : XReg) (v : Word) (s : State) : Host.Outcome State Fault Refusal :=
  retire len { x := some (rd, v) } s

/-- A jump that writes its link (R202, R203). -/
def jump (len : Nat) (rd : XReg) (target : Word) (s : State) : Host.Outcome State Fault Refusal :=
  retire len { x := some (rd, s.cpu.pc + BitVec.ofNat 32 len), pc := some target } s

/-- The target of a register-indirect jump, bit 0 cleared (R208). -/
def indirectTarget (c : Cpu) (rs1 : XReg) (imm : Word) : Word := effAddr c rs1 imm &&& 0xFFFFFFFE#32

/-- A conditional branch (R202). -/
def branch (len : Nat) (taken : Bool) (off : Word) (s : State) : Host.Outcome State Fault Refusal :=
  retire len { pc := if taken then some (s.cpu.pc + off) else none } s

/-- An integer load: `ext` makes the 32-bit value of what is read (R215 to R219). -/
def loadX (len : Nat) (sz : Size) (ext : BitVec 128 → Word) (rd rs1 : XReg) (imm : Word) (s : State) :
    Host.Outcome State Fault Refusal :=
  finish len ((memRead sz (effAddr s.cpu rs1 imm) s.env).andThen fun v e => .ok { x := some (rd, ext v) } e) s

/-- An integer store (R220 to R222). -/
def storeX (len : Nat) (sz : Size) (rs2 rs1 : XReg) (imm : Word) (s : State) : Host.Outcome State Fault Refusal :=
  finish len ((memWrite sz (effAddr s.cpu rs1 imm) ((s.cpu.readX rs2).setWidth 128) s.env).andThen fun _ e => .ok {} e)
    s

/-- The AMO sequence (R325). -/
def amo (op : Word → Word → Word) (rd rs1 rs2 : XReg) (s : State) : Host.Outcome State Fault Refusal :=
  let addr := s.cpu.readX rs1
  finish 4
    (if Size.word.aligned addr then
      (readWord addr s.env).andThen fun old e =>
        (writeWord addr (op old (s.cpu.readX rs2)) 0b1111#4 e).andThen fun _ e => .ok { x := some (rd, old) } e
    else raise .storeAddressMisaligned addr s.env) s

/-- The access kind of a CSR instruction that reads or writes (R351). -/
def accessKind (reads writes : Bool) : AccessKind :=
  if reads then (if writes then .readWrite else .readOnly) else .writeOnly

/-- The FPU's CSRs exist at this step (R356). -/
def State.fpCsrsExist (s : State) : Bool := s.cfg.flen != .none && s.env.gates.f

/-- The operation on an FP CSR (R352, R356): IllegalInstruction without the FPU. -/
def fpCsrOp (inst : Word) (csr : FpCsr) (reads writes : Bool) (f : Word → Word) (rd : XReg) (s : State) :
    Attempt Writes :=
  if s.fpCsrsExist then
    let old := fpCsrRead s.cpu.fcsr csr
    .ok { x := if reads then some (rd, old) else none
          fcsr := if writes then some (fpCsrWrite s.cpu.fcsr (f old) csr) else none } s.env
  else raise .illegalInstruction inst s.env

/-- The operation on a delegated CSR (R352): the read is issued before the write. -/
def delegatedCsrOp (n : BitVec 12) (reads writes : Bool) (f : Word → Word) (rd : XReg) (e : Env) : Attempt Writes :=
  let k := accessKind reads writes
  (if reads then csrRead n k e else .ok 0#32 e).andThen fun old e =>
    (if writes then csrWrite n (f old) k e else .ok () e).andThen fun _ e =>
      .ok { x := if reads then some (rd, old) else none } e

/-- The generic CSR operation (R352); `f` gives the new value from the old one. -/
def csrOp (inst : Word) (n : BitVec 12) (reads writes : Bool) (f : Word → Word) (rd : XReg) (s : State) :
    Host.Outcome State Fault Refusal :=
  finish 4
    (match fpCsrOf n with
      | some csr => fpCsrOp inst csr reads writes f rd s
      | none => delegatedCsrOp n reads writes f rd s.env) s

end Sys2Proof.Machine
end

