-- ==== Sys2Proof/Machine/Atomic.lean ====
section
/-! DEFINITION. The atomic instructions (42_atomic.md). The aq and rl bits change nothing (R321). -/
namespace Sys2Proof.Machine

/-- LR.W (R323). -/
def execLrW (_aq _rl : BitVec 1) (rd rs1 : XReg) (s : State) : Host.Outcome State Fault Refusal :=
  let addr := s.cpu.readX rs1
  finish 4
    (if Size.word.aligned addr then
      (loadReserved addr s.env).andThen fun v e => .ok { x := some (rd, v) } e
    else raise .loadAddressMisaligned addr s.env) s

/-- SC.W (R324). -/
def execScW (_aq _rl : BitVec 1) (rd rs1 rs2 : XReg) (s : State) : Host.Outcome State Fault Refusal :=
  let addr := s.cpu.readX rs1
  finish 4
    (if Size.word.aligned addr then
      (storeReserved addr (s.cpu.readX rs2) s.env).andThen fun success e =>
        .ok { x := some (rd, if success then 0#32 else 1#32) } e
    else raise .storeAddressMisaligned addr s.env) s

/-- AMOSWAP.W (R326). -/
def execAmoswapW (_aq _rl : BitVec 1) (rd rs1 rs2 : XReg) (s : State) : Host.Outcome State Fault Refusal :=
  amo (fun _ b => b) rd rs1 rs2 s

/-- AMOADD.W (R327). -/
def execAmoaddW (_aq _rl : BitVec 1) (rd rs1 rs2 : XReg) (s : State) : Host.Outcome State Fault Refusal :=
  amo (fun a b => a + b) rd rs1 rs2 s

/-- AMOXOR.W (R328). -/
def execAmoxorW (_aq _rl : BitVec 1) (rd rs1 rs2 : XReg) (s : State) : Host.Outcome State Fault Refusal :=
  amo (fun a b => a ^^^ b) rd rs1 rs2 s

/-- AMOAND.W (R329). -/
def execAmoandW (_aq _rl : BitVec 1) (rd rs1 rs2 : XReg) (s : State) : Host.Outcome State Fault Refusal :=
  amo (fun a b => a &&& b) rd rs1 rs2 s

/-- AMOOR.W (R330). -/
def execAmoorW (_aq _rl : BitVec 1) (rd rs1 rs2 : XReg) (s : State) : Host.Outcome State Fault Refusal :=
  amo (fun a b => a ||| b) rd rs1 rs2 s

/-- AMOMIN.W (R331). -/
def execAmominW (_aq _rl : BitVec 1) (rd rs1 rs2 : XReg) (s : State) : Host.Outcome State Fault Refusal :=
  amo (fun a b => if a.slt b then a else b) rd rs1 rs2 s

/-- AMOMAX.W (R332). -/
def execAmomaxW (_aq _rl : BitVec 1) (rd rs1 rs2 : XReg) (s : State) : Host.Outcome State Fault Refusal :=
  amo (fun a b => if b.slt a then a else b) rd rs1 rs2 s

/-- AMOMINU.W (R333). -/
def execAmominuW (_aq _rl : BitVec 1) (rd rs1 rs2 : XReg) (s : State) : Host.Outcome State Fault Refusal :=
  amo (fun a b => if a.ult b then a else b) rd rs1 rs2 s

/-- AMOMAXU.W (R334). -/
def execAmomaxuW (_aq _rl : BitVec 1) (rd rs1 rs2 : XReg) (s : State) : Host.Outcome State Fault Refusal :=
  amo (fun a b => if b.ult a then a else b) rd rs1 rs2 s

end Sys2Proof.Machine
end

