-- ==== Sys2Proof/Machine/BaseInt.lean ====
section
/-! DEFINITION. The base integer instructions (40_base_integer.md). -/
namespace Sys2Proof.Machine

/-- LUI (R205). -/
def execLui (rd : XReg) (imm : BitVec 20) (s : State) : Host.Outcome State Fault Refusal := writeReg 4 rd (immU imm) s

/-- AUIPC (R206). -/
def execAuipc (rd : XReg) (imm : BitVec 20) (s : State) : Host.Outcome State Fault Refusal :=
  writeReg 4 rd (s.cpu.pc + immU imm) s

/-- JAL (R207). -/
def execJal (rd : XReg) (off : BitVec 20) (s : State) : Host.Outcome State Fault Refusal :=
  jump 4 rd (s.cpu.pc + offsetJ off) s

/-- JALR (R208). -/
def execJalr (rd rs1 : XReg) (imm : BitVec 12) (s : State) : Host.Outcome State Fault Refusal :=
  jump 4 rd (indirectTarget s.cpu rs1 (sext imm)) s

/-- BEQ (R209). -/
def execBeq (rs1 rs2 : XReg) (off : BitVec 12) (s : State) : Host.Outcome State Fault Refusal :=
  branch 4 (s.cpu.readX rs1 == s.cpu.readX rs2) (offsetB off) s

/-- BNE (R210). -/
def execBne (rs1 rs2 : XReg) (off : BitVec 12) (s : State) : Host.Outcome State Fault Refusal :=
  branch 4 (s.cpu.readX rs1 != s.cpu.readX rs2) (offsetB off) s

/-- BLT (R211). -/
def execBlt (rs1 rs2 : XReg) (off : BitVec 12) (s : State) : Host.Outcome State Fault Refusal :=
  branch 4 ((s.cpu.readX rs1).slt (s.cpu.readX rs2)) (offsetB off) s

/-- BGE (R212). -/
def execBge (rs1 rs2 : XReg) (off : BitVec 12) (s : State) : Host.Outcome State Fault Refusal :=
  branch 4 ((s.cpu.readX rs2).sle (s.cpu.readX rs1)) (offsetB off) s

/-- BLTU (R213). -/
def execBltu (rs1 rs2 : XReg) (off : BitVec 12) (s : State) : Host.Outcome State Fault Refusal :=
  branch 4 ((s.cpu.readX rs1).ult (s.cpu.readX rs2)) (offsetB off) s

/-- BGEU (R214). -/
def execBgeu (rs1 rs2 : XReg) (off : BitVec 12) (s : State) : Host.Outcome State Fault Refusal :=
  branch 4 ((s.cpu.readX rs2).ule (s.cpu.readX rs1)) (offsetB off) s

/-- LB (R215). -/
def execLb (rd rs1 : XReg) (imm : BitVec 12) (s : State) : Host.Outcome State Fault Refusal :=
  loadX 4 .byte (fun v => sext (v.setWidth 8)) rd rs1 (sext imm) s

/-- LH (R216). -/
def execLh (rd rs1 : XReg) (imm : BitVec 12) (s : State) : Host.Outcome State Fault Refusal :=
  loadX 4 .half (fun v => sext (v.setWidth 16)) rd rs1 (sext imm) s

/-- LW (R217). -/
def execLw (rd rs1 : XReg) (imm : BitVec 12) (s : State) : Host.Outcome State Fault Refusal :=
  loadX 4 .word (fun v => v.setWidth 32) rd rs1 (sext imm) s

/-- LBU (R218). -/
def execLbu (rd rs1 : XReg) (imm : BitVec 12) (s : State) : Host.Outcome State Fault Refusal :=
  loadX 4 .byte (fun v => zext (v.setWidth 8)) rd rs1 (sext imm) s

/-- LHU (R219). -/
def execLhu (rd rs1 : XReg) (imm : BitVec 12) (s : State) : Host.Outcome State Fault Refusal :=
  loadX 4 .half (fun v => zext (v.setWidth 16)) rd rs1 (sext imm) s

/-- SB (R220). -/
def execSb (rs2 rs1 : XReg) (imm : BitVec 12) (s : State) : Host.Outcome State Fault Refusal :=
  storeX 4 .byte rs2 rs1 (sext imm) s

/-- SH (R221). -/
def execSh (rs2 rs1 : XReg) (imm : BitVec 12) (s : State) : Host.Outcome State Fault Refusal :=
  storeX 4 .half rs2 rs1 (sext imm) s

/-- SW (R222). -/
def execSw (rs2 rs1 : XReg) (imm : BitVec 12) (s : State) : Host.Outcome State Fault Refusal :=
  storeX 4 .word rs2 rs1 (sext imm) s

/-- ADDI (R223). -/
def execAddi (rd rs1 : XReg) (imm : BitVec 12) (s : State) : Host.Outcome State Fault Refusal :=
  writeReg 4 rd (s.cpu.readX rs1 + sext imm) s

/-- SLTI (R224). -/
def execSlti (rd rs1 : XReg) (imm : BitVec 12) (s : State) : Host.Outcome State Fault Refusal :=
  writeReg 4 rd (if (s.cpu.readX rs1).slt (sext imm) then 1#32 else 0#32) s

/-- SLTIU (R225). -/
def execSltiu (rd rs1 : XReg) (imm : BitVec 12) (s : State) : Host.Outcome State Fault Refusal :=
  writeReg 4 rd (if (s.cpu.readX rs1).ult (sext imm) then 1#32 else 0#32) s

/-- XORI (R226). -/
def execXori (rd rs1 : XReg) (imm : BitVec 12) (s : State) : Host.Outcome State Fault Refusal :=
  writeReg 4 rd (s.cpu.readX rs1 ^^^ sext imm) s

/-- ORI (R227). -/
def execOri (rd rs1 : XReg) (imm : BitVec 12) (s : State) : Host.Outcome State Fault Refusal :=
  writeReg 4 rd (s.cpu.readX rs1 ||| sext imm) s

/-- ANDI (R228). -/
def execAndi (rd rs1 : XReg) (imm : BitVec 12) (s : State) : Host.Outcome State Fault Refusal :=
  writeReg 4 rd (s.cpu.readX rs1 &&& sext imm) s

/-- SLLI (R229). -/
def execSlli (rd rs1 : XReg) (shamt : BitVec 5) (s : State) : Host.Outcome State Fault Refusal :=
  writeReg 4 rd (s.cpu.readX rs1 <<< shamt.toNat) s

/-- SRLI (R230). -/
def execSrli (rd rs1 : XReg) (shamt : BitVec 5) (s : State) : Host.Outcome State Fault Refusal :=
  writeReg 4 rd (s.cpu.readX rs1 >>> shamt.toNat) s

/-- SRAI (R231). -/
def execSrai (rd rs1 : XReg) (shamt : BitVec 5) (s : State) : Host.Outcome State Fault Refusal :=
  writeReg 4 rd ((s.cpu.readX rs1).sshiftRight shamt.toNat) s

/-- The shift amount in a register: its low 5 bits (R201). -/
def shiftAmount (v : Word) : Nat := (v.extractLsb' 0 5).toNat

/-- ADD (R232). -/
def execAdd (rd rs1 rs2 : XReg) (s : State) : Host.Outcome State Fault Refusal :=
  writeReg 4 rd (s.cpu.readX rs1 + s.cpu.readX rs2) s

/-- SUB (R233). -/
def execSub (rd rs1 rs2 : XReg) (s : State) : Host.Outcome State Fault Refusal :=
  writeReg 4 rd (s.cpu.readX rs1 - s.cpu.readX rs2) s

/-- SLL (R234). -/
def execSll (rd rs1 rs2 : XReg) (s : State) : Host.Outcome State Fault Refusal :=
  writeReg 4 rd (s.cpu.readX rs1 <<< shiftAmount (s.cpu.readX rs2)) s

/-- SLT (R235). -/
def execSlt (rd rs1 rs2 : XReg) (s : State) : Host.Outcome State Fault Refusal :=
  writeReg 4 rd (if (s.cpu.readX rs1).slt (s.cpu.readX rs2) then 1#32 else 0#32) s

/-- SLTU (R236). -/
def execSltu (rd rs1 rs2 : XReg) (s : State) : Host.Outcome State Fault Refusal :=
  writeReg 4 rd (if (s.cpu.readX rs1).ult (s.cpu.readX rs2) then 1#32 else 0#32) s

/-- XOR (R237). -/
def execXor (rd rs1 rs2 : XReg) (s : State) : Host.Outcome State Fault Refusal :=
  writeReg 4 rd (s.cpu.readX rs1 ^^^ s.cpu.readX rs2) s

/-- SRL (R238). -/
def execSrl (rd rs1 rs2 : XReg) (s : State) : Host.Outcome State Fault Refusal :=
  writeReg 4 rd (s.cpu.readX rs1 >>> shiftAmount (s.cpu.readX rs2)) s

/-- SRA (R239). -/
def execSra (rd rs1 rs2 : XReg) (s : State) : Host.Outcome State Fault Refusal :=
  writeReg 4 rd ((s.cpu.readX rs1).sshiftRight (shiftAmount (s.cpu.readX rs2))) s

/-- OR (R240). -/
def execOr (rd rs1 rs2 : XReg) (s : State) : Host.Outcome State Fault Refusal :=
  writeReg 4 rd (s.cpu.readX rs1 ||| s.cpu.readX rs2) s

/-- AND (R241). -/
def execAnd (rd rs1 rs2 : XReg) (s : State) : Host.Outcome State Fault Refusal :=
  writeReg 4 rd (s.cpu.readX rs1 &&& s.cpu.readX rs2) s

/-- FENCE: every field is ignored (R242, R143). -/
def execFence (_fm _pred _succ : BitVec 4) (_rs1 _rd : XReg) (s : State) : Host.Outcome State Fault Refusal :=
  retire 4 {} s

/-- ECALL (R243). -/
def execEcall (s : State) : Host.Outcome State Fault Refusal := finish 4 (raise .environmentCall 0#32 s.env) s

/-- EBREAK (R244). -/
def execEbreak (s : State) : Host.Outcome State Fault Refusal := finish 4 (raise .breakpoint 0#32 s.env) s

end Sys2Proof.Machine
end

