-- ==== Sys2Proof/Machine/FpFormat.lean ====
section
/-! DEFINITION. The three binary interchange formats: what a bit pattern stands for, and the patterns of signed zeros,
infinities and magnitudes (44_fp_numerics.md section 2). -/
namespace Sys2Proof

/-- The exponent bias (R402). -/
def Fmt.bias (fmt : Fmt) : Nat := 2 ^ (fmt.expBits - 1) - 1

/-- emin, the least normal exponent (R402). -/
def Fmt.emin (fmt : Fmt) : Int := 1 - fmt.bias

/-- p, the precision (R402). -/
def Fmt.precision (fmt : Fmt) : Nat := fmt.fracBits + 1

/-- The magnitude bits of infinity: E = 2^e - 1, T = 0 (R403). Every finite magnitude is below it, and the one before it
is MAX (R409). -/
def Fmt.infMagnitude (fmt : Fmt) : Nat := (2 ^ fmt.expBits - 1) * 2 ^ fmt.fracBits

end Sys2Proof

namespace Sys2Proof.Machine

/-- What a pattern stands for (R403): a NaN, an infinity, or the number (-1)^neg × mant × 2^exp, zeros and subnormals
included. -/
inductive Num where
  | nan (signaling : Bool)
  | inf (neg : Bool)
  | fin (neg : Bool) (mant : Nat) (exp : Int)
  deriving DecidableEq, Repr

/-- s, the sign of a pattern (R402). -/
def signOf {fmt : Fmt} (v : BitVec fmt.width) : Bool := v.getLsbD (fmt.width - 1)

/-- E, the biased exponent (R402). -/
def biasedExp {fmt : Fmt} (v : BitVec fmt.width) : Nat := (v.extractLsb' fmt.fracBits fmt.expBits).toNat

/-- T, the trailing significand (R402). -/
def fraction {fmt : Fmt} (v : BitVec fmt.width) : Nat := (v.extractLsb' 0 fmt.fracBits).toNat

/-- The pattern without its sign, as a number; it orders the magnitudes. -/
def magnitude {fmt : Fmt} (v : BitVec fmt.width) : Nat := (v.extractLsb' 0 (fmt.width - 1)).toNat

/-- The class and value of a pattern (R403). -/
def unpack {fmt : Fmt} (v : BitVec fmt.width) : Num :=
  if biasedExp v = 2 ^ fmt.expBits - 1 then
    if fraction v = 0 then .inf (signOf v) else .nan (!v.getLsbD (fmt.fracBits - 1))
  else if biasedExp v = 0 then .fin (signOf v) (fraction v) (fmt.emin - fmt.fracBits)
  else .fin (signOf v) (2 ^ fmt.fracBits + fraction v) ((biasedExp v : Int) - fmt.bias - fmt.fracBits)

/-- The value is a NaN. -/
def Num.isNaN : Num → Bool
  | .nan _ => true
  | _ => false

/-- The value is a signaling NaN (R403). -/
def Num.isSNaN : Num → Bool
  | .nan s => s
  | _ => false

/-- The value is a zero. -/
def Num.isZero : Num → Bool
  | .fin _ m _ => m == 0
  | _ => false

/-- The value is an infinity. -/
def Num.isInf : Num → Bool
  | .inf _ => true
  | _ => false

/-- The value with its sign inverted when `c` holds. -/
def Num.negIf (c : Bool) : Num → Num
  | .nan s => .nan s
  | .inf n => .inf (n ^^ c)
  | .fin n m e => .fin (n ^^ c) m e

/-- The pattern of a sign and a magnitude. -/
def pack (fmt : Fmt) (neg : Bool) (mag : Nat) : BitVec fmt.width :=
  BitVec.ofNat fmt.width (mag + if neg then 2 ^ (fmt.width - 1) else 0)

/-- A signed zero (R403). -/
def zeroOf (fmt : Fmt) (neg : Bool) : BitVec fmt.width := pack fmt neg 0

/-- A signed infinity (R403). -/
def infOf (fmt : Fmt) (neg : Bool) : BitVec fmt.width := pack fmt neg fmt.infMagnitude

/-- The sign bit inverted (R418). -/
def flipSign {fmt : Fmt} (v : BitVec fmt.width) : BitVec fmt.width := v ^^^ BitVec.ofNat fmt.width (2 ^ (fmt.width - 1))

/-- The sign bit replaced (R427). -/
def withSign {fmt : Fmt} (neg : Bool) (v : BitVec fmt.width) : BitVec fmt.width := pack fmt neg (magnitude v)

end Sys2Proof.Machine
end

