-- ==== Sys2Proof/Machine/FpRound.lean ====
section
/-! DEFINITION. Rounding: `Round` of a nonzero exact real to a format, and `RoundInt` (44_fp_numerics.md R408 to R411,
R428). An exact real is given as (-1)^neg × (mant + t) × 2^exp with 0 ≤ t < 1, where t = 0 exactly when `sticky` is false;
an operation that sets `sticky` gives a `mant` of at least two bits more than the precision. -/
namespace Sys2Proof.Machine

/-- Where a real lies between two neighbours: on the lower one, or below, at or above their midpoint. -/
inductive Tail where
  | exact | below | half | above
  deriving DecidableEq, Repr

/-- Where (mant + t) lies between two multiples of 2^s. -/
def tailOf (mant : Nat) (sticky : Bool) (s : Nat) : Tail :=
  if s = 0 then (if sticky then .below else .exact)
  else if mant % 2 ^ s = 0 ∧ sticky = false then .exact
  else if mant % 2 ^ s < 2 ^ (s - 1) then .below
  else if mant % 2 ^ s = 2 ^ (s - 1) ∧ sticky = false then .half
  else .above

/-- The magnitude is rounded up, to the upper neighbour (R408); `odd` says that the lower one is odd. -/
def roundsUp (rm : RoundingMode) (neg odd : Bool) (t : Tail) : Bool :=
  match rm with
  | .rne => t == .above || (t == .half && odd)
  | .rmm => t == .above || t == .half
  | .rtz => false
  | .rdn => neg && t != .exact
  | .rup => !neg && t != .exact

/-- (mant + t) / 2^s rounded to an integer, and whether that is inexact. -/
def quantize (rm : RoundingMode) (neg : Bool) (mant : Nat) (sticky : Bool) (s : Nat) : Nat × Bool :=
  let q := mant / 2 ^ s
  let t := tailOf mant sticky s
  (if roundsUp rm neg (q % 2 == 1) t then q + 1 else q, t != .exact)

/-- (mant + t) × 2^exp rounded to a multiple of 2^quantum, in units of 2^quantum. -/
def quantizeAt (rm : RoundingMode) (neg : Bool) (mant : Nat) (exp : Int) (sticky : Bool) (quantum : Int) : Nat × Bool :=
  quantize rm neg (mant * 2 ^ (exp - quantum).toNat) sticky (quantum - exp).toNat

/-- An overflow gives infinity, else MAX (R409). -/
def overflowsToInf (rm : RoundingMode) (neg : Bool) : Bool :=
  match rm with
  | .rne | .rmm => true
  | .rtz => false
  | .rdn => neg
  | .rup => !neg

/-- A pattern of a format and the flags raised (R416). -/
abbrev FpResult (fmt : Fmt) := BitVec fmt.width × BitVec 5

/-- `Round` with its flags, for `mant` ≠ 0 (R408 to R411).
The spacing is 2^(lead - m), or 2^(emin - m) below 2^emin, where 2^lead ≤ |x| < 2^(lead + 1). -/
def round (fmt : Fmt) (rm : RoundingMode) (neg : Bool) (mant : Nat) (exp : Int) (sticky : Bool) : FpResult fmt :=
  let lead : Int := Nat.log2 mant + exp
  let least : Int := fmt.emin - fmt.fracBits
  let quantum := max (lead - fmt.fracBits) least
  let r := quantizeAt rm neg mant exp sticky quantum
  let mag := (quantum - least).toNat * 2 ^ fmt.fracBits + r.1
  -- tiny: rounded to precision p with unbounded exponent, the magnitude is below 2^emin (R410)
  let unbounded := (quantizeAt rm neg mant exp sticky (lead - fmt.fracBits)).1
  let tiny := decide (unbounded < 2 ^ (fmt.emin - (lead - fmt.fracBits)).toNat)
  if fmt.infMagnitude ≤ mag then
    (pack fmt neg (if overflowsToInf rm neg then fmt.infMagnitude else fmt.infMagnitude - 1), flagOF ||| flagNX)
  else (pack fmt neg mag, flagIf (tiny && r.2) flagUF ||| flagIf r.2 flagNX)

/-- An integer of a sign and a magnitude. -/
def signed (neg : Bool) (n : Nat) : Int := if neg then -(n : Int) else n

/-- `RoundInt` of (-1)^neg × mant × 2^exp, and whether it differs from the value (R428). -/
def roundInt (rm : RoundingMode) (neg : Bool) (mant : Nat) (exp : Int) : Int × Bool :=
  let r := quantizeAt rm neg mant exp false 0
  (signed neg r.1, r.2)

end Sys2Proof.Machine
end

