-- ==== Sys2Proof/Machine/FpArith.lean ====
section
/-! DEFINITION. The floating-point operations as pure functions of the operands and the mode (44_fp_numerics.md
section 6). Each NaN result is the canonical NaN (R413). -/
namespace Sys2Proof.Machine

variable {fmt : Fmt}

/-- The canonical NaN, with NV when `invalid` holds (R413, R414). -/
def nanResult (fmt : Fmt) (invalid : Bool) : FpResult fmt := (canonicalNaN fmt, flagIf invalid flagNV)

/-- A result that raises nothing. -/
def quiet (v : BitVec fmt.width) : FpResult fmt := (v, noFlags)

/-- The sign of an exact zero sum (R412): that of both terms, or -0 under RDN and +0 otherwise when they differ. -/
def zeroSumSign (rm : RoundingMode) (nx ny : Bool) : Bool := if nx = ny then nx else rm == .rdn

/-- The sum of two finite numbers (R417, R423). -/
def addFinite (fmt : Fmt) (rm : RoundingMode) (nx : Bool) (mx : Nat) (ex : Int) (ny : Bool) (my : Nat) (ey : Int) :
    FpResult fmt :=
  let e := min ex ey
  let sum := signed nx (mx * 2 ^ (ex - e).toNat) + signed ny (my * 2 ^ (ey - e).toNat)
  if sum = 0 then quiet (zeroOf fmt (zeroSumSign rm nx ny))
  else round fmt rm (decide (sum < 0)) sum.natAbs e false

/-- The sum of two numbers, the infinities included; a NaN is the caller's (R417, R423). -/
def addNum (fmt : Fmt) (rm : RoundingMode) : Num → Num → FpResult fmt
  | .inf nx, .inf ny => if nx = ny then quiet (infOf fmt nx) else nanResult fmt true
  | .inf nx, _ => quiet (infOf fmt nx)
  | _, .inf ny => quiet (infOf fmt ny)
  | .fin nx mx ex, .fin ny my ey => addFinite fmt rm nx mx ex ny my ey
  | _, _ => nanResult fmt false

/-- fadd (R417). -/
def fadd (a b : BitVec fmt.width) (rm : RoundingMode) : FpResult fmt :=
  let x := unpack a
  let y := unpack b
  if x.isNaN || y.isNaN then nanResult fmt (x.isSNaN || y.isSNaN) else addNum fmt rm x y

/-- fsub (R418). -/
def fsub (a b : BitVec fmt.width) (rm : RoundingMode) : FpResult fmt := fadd a (flipSign b) rm

/-- fmul (R419). -/
def fmul (a b : BitVec fmt.width) (rm : RoundingMode) : FpResult fmt :=
  match unpack a, unpack b with
  | .nan sa, y => nanResult fmt (sa || y.isSNaN)
  | _, .nan sb => nanResult fmt sb
  | .inf na, y => if y.isZero then nanResult fmt true else quiet (infOf fmt (na ^^ signOf b))
  | x, .inf nb => if x.isZero then nanResult fmt true else quiet (infOf fmt (signOf a ^^ nb))
  | .fin na ma ea, .fin nb mb eb =>
    if ma = 0 ∨ mb = 0 then quiet (zeroOf fmt (na ^^ nb)) else round fmt rm (na ^^ nb) (ma * mb) (ea + eb) false

/-- The quotient of two finite nonzero numbers (R420): 2p + 2 more bits of dividend leave at least p + 2 bits of
quotient. -/
def divFinite (fmt : Fmt) (rm : RoundingMode) (neg : Bool) (ma : Nat) (ea : Int) (mb : Nat) (eb : Int) : FpResult fmt :=
  let k := 2 * fmt.precision + 2
  round fmt rm neg (ma * 2 ^ k / mb) (ea - eb - k) (ma * 2 ^ k % mb != 0)

/-- fdiv (R420, R415). -/
def fdiv (a b : BitVec fmt.width) (rm : RoundingMode) : FpResult fmt :=
  match unpack a, unpack b with
  | .nan sa, y => nanResult fmt (sa || y.isSNaN)
  | _, .nan sb => nanResult fmt sb
  | .inf _, .inf _ => nanResult fmt true
  | .inf na, .fin nb _ _ => quiet (infOf fmt (na ^^ nb))
  | .fin na _ _, .inf nb => quiet (zeroOf fmt (na ^^ nb))
  | .fin na ma ea, .fin nb mb eb =>
    if mb = 0 then (if ma = 0 then nanResult fmt true else (infOf fmt (na ^^ nb), flagDZ))
    else if ma = 0 then quiet (zeroOf fmt (na ^^ nb))
    else divFinite fmt rm (na ^^ nb) ma ea mb eb

/-- Adds the bits of an integer square root from bit `i - 1` down. -/
def isqrtFrom (n : Nat) : Nat → Nat → Nat
  | 0, r => r
  | i + 1, r => isqrtFrom n i (if (r + 2 ^ i) * (r + 2 ^ i) ≤ n then r + 2 ^ i else r)

/-- The integer part of the square root. -/
def isqrt (n : Nat) : Nat := isqrtFrom n (Nat.log2 n / 2 + 1) 0

/-- The square root of a finite positive number (R421): an even exponent and at least p + 2 bits of root. -/
def sqrtFinite (fmt : Fmt) (rm : RoundingMode) (m : Nat) (e : Int) : FpResult fmt :=
  let k := 2 * fmt.precision + 4 + (e % 2).toNat
  let n := m * 2 ^ k
  round fmt rm false (isqrt n) ((e - k) / 2) (isqrt n * isqrt n != n)

/-- fsqrt, accurate mode (R421). -/
def fsqrt (a : BitVec fmt.width) (rm : RoundingMode) : FpResult fmt :=
  match unpack a with
  | .nan s => nanResult fmt s
  | .inf neg => if neg then nanResult fmt true else quiet a
  | .fin neg m e => if m = 0 then quiet a else if neg then nanResult fmt true else sqrtFinite fmt rm m e

/-- `fast_sqrt_w` (R421, 92 D20), free within its bound: for a finite positive operand at most two representable values
away from the accurate result; nothing is said of any other operand, nor of the flags. DESIGN CHOICE (log 7): safe. -/
def fastSqrt (a : BitVec fmt.width) (rm : RoundingMode) : FpResult fmt :=
  let operand := a.setWidth 128
  let flags := Config.fastSqrtFlags fmt operand rm
  match unpack a with
  | .fin false m e =>
    if m = 0 then ((Config.fastSqrtSpecial fmt operand rm).setWidth fmt.width, flags)
    else ((sqrtFinite fmt rm m e).1 + BitVec.ofNat fmt.width (Config.fastSqrtOffset fmt operand rm).val
      - BitVec.ofNat fmt.width 2, flags)
  | _ => ((Config.fastSqrtSpecial fmt operand rm).setWidth fmt.width, flags)

/-- The exact product of two numbers that are not NaN, for the fused operations (R423). -/
def mulNum (na nb : Bool) : Num → Num → Num
  | .fin _ ma ea, .fin _ mb eb => .fin (na ^^ nb) (ma * mb) (ea + eb)
  | _, _ => .inf (na ^^ nb)

/-- ffma (R423, 92 D32). -/
def ffma (negP negC : Bool) (a b c : BitVec fmt.width) (rm : RoundingMode) : FpResult fmt :=
  let x := unpack a
  let y := unpack b
  let z := unpack c
  if (x.isInf && y.isZero) || (x.isZero && y.isInf) then nanResult fmt true
  else if x.isNaN || y.isNaN || z.isNaN then nanResult fmt (x.isSNaN || y.isSNaN || z.isSNaN)
  else addNum fmt rm ((mulNum (signOf a) (signOf b) x y).negIf negP) (z.negIf negC)

/-- The order of fmin and fmax on patterns that are not NaN, in which -0 < +0 (R422). -/
def totalKey (v : BitVec fmt.width) : Int := if signOf v then -(magnitude v : Int) - 1 else magnitude v

/-- The numeric order of patterns that are not NaN, in which -0 = +0 (R424, R425). -/
def numKey (v : BitVec fmt.width) : Int := signed (signOf v) (magnitude v)

/-- fmin and fmax share their NaN rules; `pick` is the choice between two numbers (R422). -/
def minMax (pick : BitVec fmt.width → BitVec fmt.width → BitVec fmt.width) (a b : BitVec fmt.width) : FpResult fmt :=
  let x := unpack a
  let y := unpack b
  let r := if x.isNaN && y.isNaN then canonicalNaN fmt else if x.isNaN then b else if y.isNaN then a else pick a b
  (r, flagIf (x.isSNaN || y.isSNaN) flagNV)

/-- fmin (R422). -/
def fmin (a b : BitVec fmt.width) : FpResult fmt := minMax (fun a b => if totalKey a ≤ totalKey b then a else b) a b

/-- fmax (R422). -/
def fmax (a b : BitVec fmt.width) : FpResult fmt := minMax (fun a b => if totalKey a ≤ totalKey b then b else a) a b

/-- feq (R424). -/
def feq (a b : BitVec fmt.width) : Bool × BitVec 5 :=
  (!(unpack a).isNaN && !(unpack b).isNaN && numKey a == numKey b,
    flagIf ((unpack a).isSNaN || (unpack b).isSNaN) flagNV)

/-- flt (R425). -/
def flt (a b : BitVec fmt.width) : Bool × BitVec 5 :=
  if (unpack a).isNaN || (unpack b).isNaN then (false, flagNV) else (decide (numKey a < numKey b), noFlags)

/-- fle (R425). -/
def fle (a b : BitVec fmt.width) : Bool × BitVec 5 :=
  if (unpack a).isNaN || (unpack b).isNaN then (false, flagNV) else (decide (numKey a ≤ numKey b), noFlags)

/-- The number of the class bit (R426). -/
def classBit (a : BitVec fmt.width) : Nat :=
  match unpack a with
  | .nan signaling => if signaling then 8 else 9
  | .inf neg => if neg then 0 else 7
  | .fin neg m _ =>
    if m = 0 then (if neg then 3 else 4)
    else if biasedExp a = 0 then (if neg then 2 else 5)
    else (if neg then 1 else 6)

/-- fclass (R426). -/
def fclass (a : BitVec fmt.width) : Word := 1#32 <<< classBit a

/-- fsgnj (R427). -/
def fsgnj (a b : BitVec fmt.width) : BitVec fmt.width := withSign (signOf b) a

/-- fsgnjn (R427). -/
def fsgnjn (a b : BitVec fmt.width) : BitVec fmt.width := withSign (!signOf b) a

/-- fsgnjx (R427). -/
def fsgnjx (a b : BitVec fmt.width) : BitVec fmt.width := withSign (signOf a ^^ signOf b) a

/-- A conversion to an integer in [lo, hi]: NaN and what lies above give `hi`, what lies below gives `lo`, with NV
(R429). -/
def toInteger (lo hi : Int) (a : BitVec fmt.width) (rm : RoundingMode) : Word × BitVec 5 :=
  match unpack a with
  | .nan _ => (BitVec.ofInt 32 hi, flagNV)
  | .inf neg => (BitVec.ofInt 32 (if neg then lo else hi), flagNV)
  | .fin neg m e =>
    let r := roundInt rm neg m e
    if hi < r.1 then (BitVec.ofInt 32 hi, flagNV)
    else if r.1 < lo then (BitVec.ofInt 32 lo, flagNV)
    else (BitVec.ofInt 32 r.1, flagIf r.2 flagNX)

/-- fcvt_w (R429). -/
def fcvtW (a : BitVec fmt.width) (rm : RoundingMode) : Word × BitVec 5 := toInteger (-2 ^ 31) (2 ^ 31 - 1) a rm

/-- fcvt_wu (R429). -/
def fcvtWu (a : BitVec fmt.width) (rm : RoundingMode) : Word × BitVec 5 := toInteger 0 (2 ^ 32 - 1) a rm

/-- A conversion from an integer (R430). -/
def ofInteger (fmt : Fmt) (i : Int) (rm : RoundingMode) : FpResult fmt :=
  if i = 0 then quiet (zeroOf fmt false) else round fmt rm (decide (i < 0)) i.natAbs 0 false

/-- fcvt_fmt_w (R430). -/
def fcvtOfW (fmt : Fmt) (v : Word) (rm : RoundingMode) : FpResult fmt := ofInteger fmt v.toInt rm

/-- fcvt_fmt_wu (R430). -/
def fcvtOfWu (fmt : Fmt) (v : Word) (rm : RoundingMode) : FpResult fmt := ofInteger fmt v.toNat rm

/-- fcvt_dst_src (R431). To a wider format `round` is exact and raises nothing. -/
def fcvtFmt (src dst : Fmt) (a : BitVec src.width) (rm : RoundingMode) : FpResult dst :=
  match unpack a with
  | .nan s => nanResult dst s
  | .inf neg => quiet (infOf dst neg)
  | .fin neg m e => if m = 0 then quiet (zeroOf dst neg) else round dst rm neg m e false

end Sys2Proof.Machine
end

