-- ==== Sys2Proof/Machine/FpOps.lean ====
section
/-! DEFINITION. The shapes of the floating-point instructions: the order of R434, the operand reads of R405, the boxed
write of R406 and the accrual of R416. `inst` is the instruction's own bits, the info of an IllegalInstruction it raises
(R712). -/
namespace Sys2Proof.Machine

/-- `f[rd] <-box_w r; FCSR.fflags |= fl`. -/
def fpWrites (s : State) {fmt : Fmt} (rd : FReg) (r : FpResult fmt) : Writes :=
  { f := some (rd, boxed s.cfg.flen fmt r.1), flags := r.2 }

/-- `x[rd] <- r; FCSR.fflags |= fl`. -/
def intWrites (rd : XReg) (r : Word × BitVec 5) : Writes := { x := some (rd, r.1), flags := r.2 }

/-- An FP load (R432). -/
def loadF (len : Nat) (fmt : Fmt) (rd : FReg) (rs1 : XReg) (imm : Word) (s : State) :
    Host.Outcome State Fault Refusal :=
  finish len
    ((memRead (fmtSize fmt) (effAddr s.cpu rs1 imm) s.env).andThen fun v e =>
      .ok (fpWrites s (fmt := fmt) rd (v.setWidth fmt.width, noFlags)) e) s

/-- An FP store: the raw low bits (R432). -/
def storeF (len : Nat) (fmt : Fmt) (rs2 : FReg) (rs1 : XReg) (imm : Word) (s : State) :
    Host.Outcome State Fault Refusal :=
  finish len
    ((memWrite (fmtSize fmt) (effAddr s.cpu rs1 imm) ((readRaw s.cpu fmt rs2).setWidth 128) s.env).andThen
      fun _ e => .ok {} e) s

/-- An instruction with an rm field, once its mode is resolved (R407, R434). -/
def withMode (inst : Word) (rm : Rm) (w : RoundingMode → Writes) (s : State) : Host.Outcome State Fault Refusal :=
  finish 4 ((orIllegal inst (resolveRm s.cpu.fcsr rm) s.env).andThen fun m e => .ok (w m) e) s

/-- A two-operand operation that rounds (R417 to R420). -/
def fpBinary (fmt : Fmt) (op : BitVec fmt.width → BitVec fmt.width → RoundingMode → FpResult fmt) (inst : Word)
    (rd rs1 rs2 : FReg) (rm : Rm) (s : State) : Host.Outcome State Fault Refusal :=
  withMode inst rm (fun m =>
    fpWrites s rd (op (readFp s.cfg.flen s.cpu fmt rs1) (readFp s.cfg.flen s.cpu fmt rs2) m)) s

/-- A fused multiply-add (R423). -/
def fpFused (fmt : Fmt) (negP negC : Bool) (inst : Word) (rd rs1 rs2 rs3 : FReg) (rm : Rm) (s : State) :
    Host.Outcome State Fault Refusal :=
  withMode inst rm (fun m =>
    fpWrites s rd (ffma negP negC (readFp s.cfg.flen s.cpu fmt rs1) (readFp s.cfg.flen s.cpu fmt rs2)
      (readFp s.cfg.flen s.cpu fmt rs3) m)) s

/-- What FSQRT computes under a `SqrtMode` answer; none when the answer makes it illegal (R421). -/
def sqrtUnder (fmt : Fmt) (a : BitVec fmt.width) (m : RoundingMode) : SqrtMode → Option (FpResult fmt)
  | .illegal => none
  | .accurate => if fmt = .q then none else some (fsqrt a m)
  | .fast => some (fastSqrt a m)

/-- FSQRT: the mode, then one `SqrtMode` request, then the operation (R421). -/
def fpSqrt (fmt : Fmt) (inst : Word) (rd rs1 : FReg) (rm : Rm) (s : State) : Host.Outcome State Fault Refusal :=
  finish 4
    ((orIllegal inst (resolveRm s.cpu.fcsr rm) s.env).andThen fun m e =>
      (sqrtMode fmt e).andThen fun mode e =>
        (orIllegal inst (sqrtUnder fmt (readFp s.cfg.flen s.cpu fmt rs1) m mode) e).andThen fun r e =>
          .ok (fpWrites s rd r) e) s

/-- A two-operand operation that does not round (R422, R427). -/
def fpExact (fmt : Fmt) (op : BitVec fmt.width → BitVec fmt.width → FpResult fmt) (rd rs1 rs2 : FReg) (s : State) :
    Host.Outcome State Fault Refusal :=
  retire 4 (fpWrites s rd (op (readFp s.cfg.flen s.cpu fmt rs1) (readFp s.cfg.flen s.cpu fmt rs2))) s

/-- A comparison, to an integer register (R424, R425). -/
def fpCompare (fmt : Fmt) (op : BitVec fmt.width → BitVec fmt.width → Bool × BitVec 5) (rd : XReg) (rs1 rs2 : FReg)
    (s : State) : Host.Outcome State Fault Refusal :=
  let r := op (readFp s.cfg.flen s.cpu fmt rs1) (readFp s.cfg.flen s.cpu fmt rs2)
  retire 4 (intWrites rd (if r.1 then 1#32 else 0#32, r.2)) s

/-- FCLASS (R426). -/
def fpClassify (fmt : Fmt) (rd : XReg) (rs1 : FReg) (s : State) : Host.Outcome State Fault Refusal :=
  writeReg 4 rd (fclass (readFp s.cfg.flen s.cpu fmt rs1)) s

/-- A conversion to an integer register (R429). -/
def fpToInt (fmt : Fmt) (op : BitVec fmt.width → RoundingMode → Word × BitVec 5) (inst : Word) (rd : XReg) (rs1 : FReg)
    (rm : Rm) (s : State) : Host.Outcome State Fault Refusal :=
  withMode inst rm (fun m => intWrites rd (op (readFp s.cfg.flen s.cpu fmt rs1) m)) s

/-- A conversion from an integer register (R430). -/
def fpFromInt (fmt : Fmt) (op : Word → RoundingMode → FpResult fmt) (inst : Word) (rd : FReg) (rs1 : XReg) (rm : Rm)
    (s : State) : Host.Outcome State Fault Refusal :=
  withMode inst rm (fun m => fpWrites s rd (op (s.cpu.readX rs1) m)) s

/-- A conversion between formats (R431). -/
def fpConvert (src dst : Fmt) (inst : Word) (rd rs1 : FReg) (rm : Rm) (s : State) : Host.Outcome State Fault Refusal :=
  withMode inst rm (fun m => fpWrites s rd (fcvtFmt src dst (readFp s.cfg.flen s.cpu src rs1) m)) s

end Sys2Proof.Machine
end

