-- ==== Sys2Proof/Machine/Compressed.lean ====
section
/-! DEFINITION. The compressed instructions (48_compressed.md): each has the semantics of the instruction it expands to,
with a length of 2 (R602). -/
namespace Sys2Proof.Machine

/-- C.ADDI4SPN: ADDI rd', x2, nzuimm (R605). -/
def execCAddi4spn (rd : CReg) (imm : BitVec 8) (s : State) : Host.Outcome State Fault Refusal :=
  writeReg 2 (creg rd) (s.cpu.readX spReg + zext (scaled 2 imm)) s

/-- C.FLD: FLD rd', uimm(rs1') (R606). -/
def execCFld (rd rs1 : CReg) (imm : BitVec 5) (s : State) : Host.Outcome State Fault Refusal :=
  loadF 2 .d (creg rd) (creg rs1) (zext (scaled 3 imm)) s

/-- C.LW: LW rd', uimm(rs1') (R607). -/
def execCLw (rd rs1 : CReg) (imm : BitVec 5) (s : State) : Host.Outcome State Fault Refusal :=
  loadX 2 .word (fun v => v.setWidth 32) (creg rd) (creg rs1) (zext (scaled 2 imm)) s

/-- C.FLW: FLW rd', uimm(rs1') (R608). -/
def execCFlw (rd rs1 : CReg) (imm : BitVec 5) (s : State) : Host.Outcome State Fault Refusal :=
  loadF 2 .s (creg rd) (creg rs1) (zext (scaled 2 imm)) s

/-- C.FSD: FSD rs2', uimm(rs1') (R609). -/
def execCFsd (rs2 rs1 : CReg) (imm : BitVec 5) (s : State) : Host.Outcome State Fault Refusal :=
  storeF 2 .d (creg rs2) (creg rs1) (zext (scaled 3 imm)) s

/-- C.SW: SW rs2', uimm(rs1') (R610). -/
def execCSw (rs2 rs1 : CReg) (imm : BitVec 5) (s : State) : Host.Outcome State Fault Refusal :=
  storeX 2 .word (creg rs2) (creg rs1) (zext (scaled 2 imm)) s

/-- C.FSW: FSW rs2', uimm(rs1') (R611). -/
def execCFsw (rs2 rs1 : CReg) (imm : BitVec 5) (s : State) : Host.Outcome State Fault Refusal :=
  storeF 2 .s (creg rs2) (creg rs1) (zext (scaled 2 imm)) s

/-- C.NOP: ADDI x0, x0, nzimm (R612). -/
def execCNop (imm : BitVec 6) (s : State) : Host.Outcome State Fault Refusal :=
  writeReg 2 0#5 (s.cpu.readX 0#5 + sext imm) s

/-- C.ADDI: ADDI rd, rd, nzimm (R613). -/
def execCAddi (rd : XReg) (imm : BitVec 6) (s : State) : Host.Outcome State Fault Refusal :=
  writeReg 2 rd (s.cpu.readX rd + sext imm) s

/-- C.JAL: JAL x1, offset, the link pc + 2 (R614). -/
def execCJal (off : BitVec 11) (s : State) : Host.Outcome State Fault Refusal :=
  jump 2 linkReg (s.cpu.pc + sext (scaled 1 off)) s

/-- C.LI: ADDI rd, x0, imm (R615). -/
def execCLi (rd : XReg) (imm : BitVec 6) (s : State) : Host.Outcome State Fault Refusal :=
  writeReg 2 rd (s.cpu.readX 0#5 + sext imm) s

/-- C.ADDI16SP: ADDI x2, x2, nzimm (R616). -/
def execCAddi16sp (imm : BitVec 6) (s : State) : Host.Outcome State Fault Refusal :=
  writeReg 2 spReg (s.cpu.readX spReg + sext (scaled 4 imm)) s

/-- C.LUI: LUI rd, nzimm (R617). -/
def execCLui (rd : XReg) (imm : BitVec 6) (s : State) : Host.Outcome State Fault Refusal :=
  writeReg 2 rd (immU (immCLui imm)) s

/-- C.SRLI: SRLI rd', rd', shamt (R618). -/
def execCSrli (rd : CReg) (shamt : BitVec 5) (s : State) : Host.Outcome State Fault Refusal :=
  writeReg 2 (creg rd) (s.cpu.readX (creg rd) >>> shamt.toNat) s

/-- C.SRAI: SRAI rd', rd', shamt (R619). -/
def execCSrai (rd : CReg) (shamt : BitVec 5) (s : State) : Host.Outcome State Fault Refusal :=
  writeReg 2 (creg rd) ((s.cpu.readX (creg rd)).sshiftRight shamt.toNat) s

/-- C.ANDI: ANDI rd', rd', imm (R620). -/
def execCAndi (rd : CReg) (imm : BitVec 6) (s : State) : Host.Outcome State Fault Refusal :=
  writeReg 2 (creg rd) (s.cpu.readX (creg rd) &&& sext imm) s

/-- C.SUB: SUB rd', rd', rs2' (R621). -/
def execCSub (rd rs2 : CReg) (s : State) : Host.Outcome State Fault Refusal :=
  writeReg 2 (creg rd) (s.cpu.readX (creg rd) - s.cpu.readX (creg rs2)) s

/-- C.XOR: XOR rd', rd', rs2' (R622). -/
def execCXor (rd rs2 : CReg) (s : State) : Host.Outcome State Fault Refusal :=
  writeReg 2 (creg rd) (s.cpu.readX (creg rd) ^^^ s.cpu.readX (creg rs2)) s

/-- C.OR: OR rd', rd', rs2' (R623). -/
def execCOr (rd rs2 : CReg) (s : State) : Host.Outcome State Fault Refusal :=
  writeReg 2 (creg rd) (s.cpu.readX (creg rd) ||| s.cpu.readX (creg rs2)) s

/-- C.AND: AND rd', rd', rs2' (R624). -/
def execCAnd (rd rs2 : CReg) (s : State) : Host.Outcome State Fault Refusal :=
  writeReg 2 (creg rd) (s.cpu.readX (creg rd) &&& s.cpu.readX (creg rs2)) s

/-- C.J: JAL x0, offset (R625). -/
def execCJ (off : BitVec 11) (s : State) : Host.Outcome State Fault Refusal :=
  jump 2 0#5 (s.cpu.pc + sext (scaled 1 off)) s

/-- C.BEQZ: BEQ rs1', x0, offset (R626). -/
def execCBeqz (rs1 : CReg) (off : BitVec 8) (s : State) : Host.Outcome State Fault Refusal :=
  branch 2 (s.cpu.readX (creg rs1) == s.cpu.readX 0#5) (sext (scaled 1 off)) s

/-- C.BNEZ: BNE rs1', x0, offset (R627). -/
def execCBnez (rs1 : CReg) (off : BitVec 8) (s : State) : Host.Outcome State Fault Refusal :=
  branch 2 (s.cpu.readX (creg rs1) != s.cpu.readX 0#5) (sext (scaled 1 off)) s

/-- C.SLLI: SLLI rd, rd, shamt (R628). -/
def execCSlli (rd : XReg) (shamt : BitVec 5) (s : State) : Host.Outcome State Fault Refusal :=
  writeReg 2 rd (s.cpu.readX rd <<< shamt.toNat) s

/-- C.FLDSP: FLD rd, uimm(x2) (R629). -/
def execCFldsp (rd : FReg) (imm : BitVec 6) (s : State) : Host.Outcome State Fault Refusal :=
  loadF 2 .d rd spReg (zext (scaled 3 imm)) s

/-- C.LWSP: LW rd, uimm(x2) (R630). -/
def execCLwsp (rd : XReg) (imm : BitVec 6) (s : State) : Host.Outcome State Fault Refusal :=
  loadX 2 .word (fun v => v.setWidth 32) rd spReg (zext (scaled 2 imm)) s

/-- C.FLWSP: FLW rd, uimm(x2) (R631). -/
def execCFlwsp (rd : FReg) (imm : BitVec 6) (s : State) : Host.Outcome State Fault Refusal :=
  loadF 2 .s rd spReg (zext (scaled 2 imm)) s

/-- C.JR: JALR x0, 0(rs1) (R632). -/
def execCJr (rs1 : XReg) (s : State) : Host.Outcome State Fault Refusal := jump 2 0#5 (indirectTarget s.cpu rs1 0#32) s

/-- C.MV: ADD rd, x0, rs2 (R633). -/
def execCMv (rd rs2 : XReg) (s : State) : Host.Outcome State Fault Refusal :=
  writeReg 2 rd (s.cpu.readX 0#5 + s.cpu.readX rs2) s

/-- C.EBREAK: EBREAK (R634). -/
def execCEbreak (s : State) : Host.Outcome State Fault Refusal := finish 2 (raise .breakpoint 0#32 s.env) s

/-- C.JALR: JALR x1, 0(rs1), the link pc + 2 (R635). -/
def execCJalr (rs1 : XReg) (s : State) : Host.Outcome State Fault Refusal :=
  jump 2 linkReg (indirectTarget s.cpu rs1 0#32) s

/-- C.ADD: ADD rd, rd, rs2 (R636). -/
def execCAdd (rd rs2 : XReg) (s : State) : Host.Outcome State Fault Refusal :=
  writeReg 2 rd (s.cpu.readX rd + s.cpu.readX rs2) s

/-- C.FSDSP: FSD rs2, uimm(x2) (R637). -/
def execCFsdsp (rs2 : FReg) (imm : BitVec 6) (s : State) : Host.Outcome State Fault Refusal :=
  storeF 2 .d rs2 spReg (zext (scaled 3 imm)) s

/-- C.SWSP: SW rs2, uimm(x2) (R638). -/
def execCSwsp (rs2 : XReg) (imm : BitVec 6) (s : State) : Host.Outcome State Fault Refusal :=
  storeX 2 .word rs2 spReg (zext (scaled 2 imm)) s

/-- C.FSWSP: FSW rs2, uimm(x2) (R639). -/
def execCFswsp (rs2 : FReg) (imm : BitVec 6) (s : State) : Host.Outcome State Fault Refusal :=
  storeF 2 .s rs2 spReg (zext (scaled 2 imm)) s

end Sys2Proof.Machine
end

