-- ==== Sys2Proof/Machine/Csr.lean ====
section
/-! DEFINITION. The CSR instructions and FENCE.I (43_zicsr_fence.md). -/
namespace Sys2Proof.Machine

/-- CSRRW (R357). -/
def execCsrrw (rd : XReg) (csr : BitVec 12) (rs1 : XReg) (s : State) : Host.Outcome State Fault Refusal :=
  csrOp (Instr.csrrw rd csr rs1).bits csr (rd != 0#5) true (fun _ => s.cpu.readX rs1) rd s

/-- CSRRS (R358). -/
def execCsrrs (rd : XReg) (csr : BitVec 12) (rs1 : XReg) (s : State) : Host.Outcome State Fault Refusal :=
  csrOp (Instr.csrrs rd csr rs1).bits csr true (rs1 != 0#5) (fun old => old ||| s.cpu.readX rs1) rd s

/-- CSRRC (R359). -/
def execCsrrc (rd : XReg) (csr : BitVec 12) (rs1 : XReg) (s : State) : Host.Outcome State Fault Refusal :=
  csrOp (Instr.csrrc rd csr rs1).bits csr true (rs1 != 0#5) (fun old => old &&& ~~~(s.cpu.readX rs1)) rd s

/-- CSRRWI (R360). -/
def execCsrrwi (rd : XReg) (csr : BitVec 12) (uimm : BitVec 5) (s : State) : Host.Outcome State Fault Refusal :=
  csrOp (Instr.csrrwi rd csr uimm).bits csr (rd != 0#5) true (fun _ => zext uimm) rd s

/-- CSRRSI (R361). -/
def execCsrrsi (rd : XReg) (csr : BitVec 12) (uimm : BitVec 5) (s : State) : Host.Outcome State Fault Refusal :=
  csrOp (Instr.csrrsi rd csr uimm).bits csr true (uimm != 0#5) (fun old => old ||| zext uimm) rd s

/-- CSRRCI (R362). -/
def execCsrrci (rd : XReg) (csr : BitVec 12) (uimm : BitVec 5) (s : State) : Host.Outcome State Fault Refusal :=
  csrOp (Instr.csrrci rd csr uimm).bits csr true (uimm != 0#5) (fun old => old &&& ~~~(zext uimm)) rd s

/-- FENCE.I: every field is ignored (R363, R143). -/
def execFenceI (_imm : BitVec 12) (_rs1 _rd : XReg) (s : State) : Host.Outcome State Fault Refusal := retire 4 {} s

end Sys2Proof.Machine
end

