-- ==== Sys2Proof/Machine/FpDouble.lean ====
section
/-! DEFINITION. The double-precision floating-point instructions (46_fp_double.md). -/
namespace Sys2Proof.Machine

/-- FLD (R500). -/
def execFld (rd : FReg) (rs1 : XReg) (imm : BitVec 12) (s : State) : Host.Outcome State Fault Refusal :=
  loadF 4 .d rd rs1 (sext imm) s

/-- FSD (R501). -/
def execFsd (rs2 : FReg) (rs1 : XReg) (imm : BitVec 12) (s : State) : Host.Outcome State Fault Refusal :=
  storeF 4 .d rs2 rs1 (sext imm) s

/-- FMADD.D (R502). -/
def execFmaddD (rd rs1 rs2 rs3 : FReg) (rm : Rm) (s : State) : Host.Outcome State Fault Refusal :=
  fpFused .d false false (Instr.fmaddD rd rs1 rs2 rs3 rm).bits rd rs1 rs2 rs3 rm s

/-- FMSUB.D (R503). -/
def execFmsubD (rd rs1 rs2 rs3 : FReg) (rm : Rm) (s : State) : Host.Outcome State Fault Refusal :=
  fpFused .d false true (Instr.fmsubD rd rs1 rs2 rs3 rm).bits rd rs1 rs2 rs3 rm s

/-- FNMSUB.D (R504). -/
def execFnmsubD (rd rs1 rs2 rs3 : FReg) (rm : Rm) (s : State) : Host.Outcome State Fault Refusal :=
  fpFused .d true false (Instr.fnmsubD rd rs1 rs2 rs3 rm).bits rd rs1 rs2 rs3 rm s

/-- FNMADD.D (R505). -/
def execFnmaddD (rd rs1 rs2 rs3 : FReg) (rm : Rm) (s : State) : Host.Outcome State Fault Refusal :=
  fpFused .d true true (Instr.fnmaddD rd rs1 rs2 rs3 rm).bits rd rs1 rs2 rs3 rm s

/-- FADD.D (R506). -/
def execFaddD (rd rs1 rs2 : FReg) (rm : Rm) (s : State) : Host.Outcome State Fault Refusal :=
  fpBinary .d fadd (Instr.faddD rd rs1 rs2 rm).bits rd rs1 rs2 rm s

/-- FSUB.D (R507). -/
def execFsubD (rd rs1 rs2 : FReg) (rm : Rm) (s : State) : Host.Outcome State Fault Refusal :=
  fpBinary .d fsub (Instr.fsubD rd rs1 rs2 rm).bits rd rs1 rs2 rm s

/-- FMUL.D (R508). -/
def execFmulD (rd rs1 rs2 : FReg) (rm : Rm) (s : State) : Host.Outcome State Fault Refusal :=
  fpBinary .d fmul (Instr.fmulD rd rs1 rs2 rm).bits rd rs1 rs2 rm s

/-- FDIV.D (R509). -/
def execFdivD (rd rs1 rs2 : FReg) (rm : Rm) (s : State) : Host.Outcome State Fault Refusal :=
  fpBinary .d fdiv (Instr.fdivD rd rs1 rs2 rm).bits rd rs1 rs2 rm s

/-- FSQRT.D (R510). -/
def execFsqrtD (rd rs1 : FReg) (rm : Rm) (s : State) : Host.Outcome State Fault Refusal :=
  fpSqrt .d (Instr.fsqrtD rd rs1 rm).bits rd rs1 rm s

/-- FSGNJ.D (R511). -/
def execFsgnjD (rd rs1 rs2 : FReg) (s : State) : Host.Outcome State Fault Refusal :=
  fpExact .d (fun a b => (fsgnj a b, noFlags)) rd rs1 rs2 s

/-- FSGNJN.D (R512). -/
def execFsgnjnD (rd rs1 rs2 : FReg) (s : State) : Host.Outcome State Fault Refusal :=
  fpExact .d (fun a b => (fsgnjn a b, noFlags)) rd rs1 rs2 s

/-- FSGNJX.D (R513). -/
def execFsgnjxD (rd rs1 rs2 : FReg) (s : State) : Host.Outcome State Fault Refusal :=
  fpExact .d (fun a b => (fsgnjx a b, noFlags)) rd rs1 rs2 s

/-- FMIN.D (R514). -/
def execFminD (rd rs1 rs2 : FReg) (s : State) : Host.Outcome State Fault Refusal := fpExact .d fmin rd rs1 rs2 s

/-- FMAX.D (R515). -/
def execFmaxD (rd rs1 rs2 : FReg) (s : State) : Host.Outcome State Fault Refusal := fpExact .d fmax rd rs1 rs2 s

/-- FEQ.D (R518). -/
def execFeqD (rd : XReg) (rs1 rs2 : FReg) (s : State) : Host.Outcome State Fault Refusal :=
  fpCompare .d feq rd rs1 rs2 s

/-- FLT.D (R519). -/
def execFltD (rd : XReg) (rs1 rs2 : FReg) (s : State) : Host.Outcome State Fault Refusal :=
  fpCompare .d flt rd rs1 rs2 s

/-- FLE.D (R520). -/
def execFleD (rd : XReg) (rs1 rs2 : FReg) (s : State) : Host.Outcome State Fault Refusal :=
  fpCompare .d fle rd rs1 rs2 s

/-- FCLASS.D (R521). -/
def execFclassD (rd : XReg) (rs1 : FReg) (s : State) : Host.Outcome State Fault Refusal := fpClassify .d rd rs1 s

/-- FCVT.W.D (R522). -/
def execFcvtWD (rd : XReg) (rs1 : FReg) (rm : Rm) (s : State) : Host.Outcome State Fault Refusal :=
  fpToInt .d fcvtW (Instr.fcvtWD rd rs1 rm).bits rd rs1 rm s

/-- FCVT.D.W (R524). -/
def execFcvtDW (rd : FReg) (rs1 : XReg) (rm : Rm) (s : State) : Host.Outcome State Fault Refusal :=
  fpFromInt .d (fcvtOfW .d) (Instr.fcvtDW rd rs1 rm).bits rd rs1 rm s

/-- FCVT.WU.D (R523). -/
def execFcvtWuD (rd : XReg) (rs1 : FReg) (rm : Rm) (s : State) : Host.Outcome State Fault Refusal :=
  fpToInt .d fcvtWu (Instr.fcvtWuD rd rs1 rm).bits rd rs1 rm s

/-- FCVT.D.WU (R525). -/
def execFcvtDWu (rd : FReg) (rs1 : XReg) (rm : Rm) (s : State) : Host.Outcome State Fault Refusal :=
  fpFromInt .d (fcvtOfWu .d) (Instr.fcvtDWu rd rs1 rm).bits rd rs1 rm s

/-- FCVT.S.D (R516). -/
def execFcvtSD (rd rs1 : FReg) (rm : Rm) (s : State) : Host.Outcome State Fault Refusal :=
  fpConvert .d .s (Instr.fcvtSD rd rs1 rm).bits rd rs1 rm s

/-- FCVT.D.S (R517). -/
def execFcvtDS (rd rs1 : FReg) (rm : Rm) (s : State) : Host.Outcome State Fault Refusal :=
  fpConvert .s .d (Instr.fcvtDS rd rs1 rm).bits rd rs1 rm s

end Sys2Proof.Machine
end

