-- ==== Sys2Proof/Machine/FpQuad.lean ====
section
/-! DEFINITION. The quad-precision floating-point instructions (47_fp_quad.md). -/
namespace Sys2Proof.Machine

/-- FLQ (R540). -/
def execFlq (rd : FReg) (rs1 : XReg) (imm : BitVec 12) (s : State) : Host.Outcome State Fault Refusal :=
  loadF 4 .q rd rs1 (sext imm) s

/-- FSQ (R541). -/
def execFsq (rs2 : FReg) (rs1 : XReg) (imm : BitVec 12) (s : State) : Host.Outcome State Fault Refusal :=
  storeF 4 .q rs2 rs1 (sext imm) s

/-- FMADD.Q (R542). -/
def execFmaddQ (rd rs1 rs2 rs3 : FReg) (rm : Rm) (s : State) : Host.Outcome State Fault Refusal :=
  fpFused .q false false (Instr.fmaddQ rd rs1 rs2 rs3 rm).bits rd rs1 rs2 rs3 rm s

/-- FMSUB.Q (R543). -/
def execFmsubQ (rd rs1 rs2 rs3 : FReg) (rm : Rm) (s : State) : Host.Outcome State Fault Refusal :=
  fpFused .q false true (Instr.fmsubQ rd rs1 rs2 rs3 rm).bits rd rs1 rs2 rs3 rm s

/-- FNMSUB.Q (R544). -/
def execFnmsubQ (rd rs1 rs2 rs3 : FReg) (rm : Rm) (s : State) : Host.Outcome State Fault Refusal :=
  fpFused .q true false (Instr.fnmsubQ rd rs1 rs2 rs3 rm).bits rd rs1 rs2 rs3 rm s

/-- FNMADD.Q (R545). -/
def execFnmaddQ (rd rs1 rs2 rs3 : FReg) (rm : Rm) (s : State) : Host.Outcome State Fault Refusal :=
  fpFused .q true true (Instr.fnmaddQ rd rs1 rs2 rs3 rm).bits rd rs1 rs2 rs3 rm s

/-- FADD.Q (R546). -/
def execFaddQ (rd rs1 rs2 : FReg) (rm : Rm) (s : State) : Host.Outcome State Fault Refusal :=
  fpBinary .q fadd (Instr.faddQ rd rs1 rs2 rm).bits rd rs1 rs2 rm s

/-- FSUB.Q (R547). -/
def execFsubQ (rd rs1 rs2 : FReg) (rm : Rm) (s : State) : Host.Outcome State Fault Refusal :=
  fpBinary .q fsub (Instr.fsubQ rd rs1 rs2 rm).bits rd rs1 rs2 rm s

/-- FMUL.Q (R548). -/
def execFmulQ (rd rs1 rs2 : FReg) (rm : Rm) (s : State) : Host.Outcome State Fault Refusal :=
  fpBinary .q fmul (Instr.fmulQ rd rs1 rs2 rm).bits rd rs1 rs2 rm s

/-- FDIV.Q (R549). -/
def execFdivQ (rd rs1 rs2 : FReg) (rm : Rm) (s : State) : Host.Outcome State Fault Refusal :=
  fpBinary .q fdiv (Instr.fdivQ rd rs1 rs2 rm).bits rd rs1 rs2 rm s

/-- FSQRT.Q (R550). -/
def execFsqrtQ (rd rs1 : FReg) (rm : Rm) (s : State) : Host.Outcome State Fault Refusal :=
  fpSqrt .q (Instr.fsqrtQ rd rs1 rm).bits rd rs1 rm s

/-- FSGNJ.Q (R551). -/
def execFsgnjQ (rd rs1 rs2 : FReg) (s : State) : Host.Outcome State Fault Refusal :=
  fpExact .q (fun a b => (fsgnj a b, noFlags)) rd rs1 rs2 s

/-- FSGNJN.Q (R552). -/
def execFsgnjnQ (rd rs1 rs2 : FReg) (s : State) : Host.Outcome State Fault Refusal :=
  fpExact .q (fun a b => (fsgnjn a b, noFlags)) rd rs1 rs2 s

/-- FSGNJX.Q (R553). -/
def execFsgnjxQ (rd rs1 rs2 : FReg) (s : State) : Host.Outcome State Fault Refusal :=
  fpExact .q (fun a b => (fsgnjx a b, noFlags)) rd rs1 rs2 s

/-- FMIN.Q (R554). -/
def execFminQ (rd rs1 rs2 : FReg) (s : State) : Host.Outcome State Fault Refusal := fpExact .q fmin rd rs1 rs2 s

/-- FMAX.Q (R555). -/
def execFmaxQ (rd rs1 rs2 : FReg) (s : State) : Host.Outcome State Fault Refusal := fpExact .q fmax rd rs1 rs2 s

/-- FEQ.Q (R560). -/
def execFeqQ (rd : XReg) (rs1 rs2 : FReg) (s : State) : Host.Outcome State Fault Refusal :=
  fpCompare .q feq rd rs1 rs2 s

/-- FLT.Q (R561). -/
def execFltQ (rd : XReg) (rs1 rs2 : FReg) (s : State) : Host.Outcome State Fault Refusal :=
  fpCompare .q flt rd rs1 rs2 s

/-- FLE.Q (R562). -/
def execFleQ (rd : XReg) (rs1 rs2 : FReg) (s : State) : Host.Outcome State Fault Refusal :=
  fpCompare .q fle rd rs1 rs2 s

/-- FCLASS.Q (R563). -/
def execFclassQ (rd : XReg) (rs1 : FReg) (s : State) : Host.Outcome State Fault Refusal := fpClassify .q rd rs1 s

/-- FCVT.W.Q (R564). -/
def execFcvtWQ (rd : XReg) (rs1 : FReg) (rm : Rm) (s : State) : Host.Outcome State Fault Refusal :=
  fpToInt .q fcvtW (Instr.fcvtWQ rd rs1 rm).bits rd rs1 rm s

/-- FCVT.Q.W (R566). -/
def execFcvtQW (rd : FReg) (rs1 : XReg) (rm : Rm) (s : State) : Host.Outcome State Fault Refusal :=
  fpFromInt .q (fcvtOfW .q) (Instr.fcvtQW rd rs1 rm).bits rd rs1 rm s

/-- FCVT.WU.Q (R565). -/
def execFcvtWuQ (rd : XReg) (rs1 : FReg) (rm : Rm) (s : State) : Host.Outcome State Fault Refusal :=
  fpToInt .q fcvtWu (Instr.fcvtWuQ rd rs1 rm).bits rd rs1 rm s

/-- FCVT.Q.WU (R567). -/
def execFcvtQWu (rd : FReg) (rs1 : XReg) (rm : Rm) (s : State) : Host.Outcome State Fault Refusal :=
  fpFromInt .q (fcvtOfWu .q) (Instr.fcvtQWu rd rs1 rm).bits rd rs1 rm s

/-- FCVT.S.Q (R556). -/
def execFcvtSQ (rd rs1 : FReg) (rm : Rm) (s : State) : Host.Outcome State Fault Refusal :=
  fpConvert .q .s (Instr.fcvtSQ rd rs1 rm).bits rd rs1 rm s

/-- FCVT.Q.S (R557). -/
def execFcvtQS (rd rs1 : FReg) (rm : Rm) (s : State) : Host.Outcome State Fault Refusal :=
  fpConvert .s .q (Instr.fcvtQS rd rs1 rm).bits rd rs1 rm s

/-- FCVT.D.Q (R558). -/
def execFcvtDQ (rd rs1 : FReg) (rm : Rm) (s : State) : Host.Outcome State Fault Refusal :=
  fpConvert .q .d (Instr.fcvtDQ rd rs1 rm).bits rd rs1 rm s

/-- FCVT.Q.D (R559). -/
def execFcvtQD (rd rs1 : FReg) (rm : Rm) (s : State) : Host.Outcome State Fault Refusal :=
  fpConvert .d .q (Instr.fcvtQD rd rs1 rm).bits rd rs1 rm s

end Sys2Proof.Machine
end

