-- ==== Sys2Proof/Machine/FpSingle.lean ====
section
/-! DEFINITION. The single-precision floating-point instructions (45_fp_single.md). -/
namespace Sys2Proof.Machine

/-- FLW (R460). -/
def execFlw (rd : FReg) (rs1 : XReg) (imm : BitVec 12) (s : State) : Host.Outcome State Fault Refusal :=
  loadF 4 .s rd rs1 (sext imm) s

/-- FSW (R461). -/
def execFsw (rs2 : FReg) (rs1 : XReg) (imm : BitVec 12) (s : State) : Host.Outcome State Fault Refusal :=
  storeF 4 .s rs2 rs1 (sext imm) s

/-- FMADD.S (R462). -/
def execFmaddS (rd rs1 rs2 rs3 : FReg) (rm : Rm) (s : State) : Host.Outcome State Fault Refusal :=
  fpFused .s false false (Instr.fmaddS rd rs1 rs2 rs3 rm).bits rd rs1 rs2 rs3 rm s

/-- FMSUB.S (R463). -/
def execFmsubS (rd rs1 rs2 rs3 : FReg) (rm : Rm) (s : State) : Host.Outcome State Fault Refusal :=
  fpFused .s false true (Instr.fmsubS rd rs1 rs2 rs3 rm).bits rd rs1 rs2 rs3 rm s

/-- FNMSUB.S (R464). -/
def execFnmsubS (rd rs1 rs2 rs3 : FReg) (rm : Rm) (s : State) : Host.Outcome State Fault Refusal :=
  fpFused .s true false (Instr.fnmsubS rd rs1 rs2 rs3 rm).bits rd rs1 rs2 rs3 rm s

/-- FNMADD.S (R465). -/
def execFnmaddS (rd rs1 rs2 rs3 : FReg) (rm : Rm) (s : State) : Host.Outcome State Fault Refusal :=
  fpFused .s true true (Instr.fnmaddS rd rs1 rs2 rs3 rm).bits rd rs1 rs2 rs3 rm s

/-- FADD.S (R466). -/
def execFaddS (rd rs1 rs2 : FReg) (rm : Rm) (s : State) : Host.Outcome State Fault Refusal :=
  fpBinary .s fadd (Instr.faddS rd rs1 rs2 rm).bits rd rs1 rs2 rm s

/-- FSUB.S (R467). -/
def execFsubS (rd rs1 rs2 : FReg) (rm : Rm) (s : State) : Host.Outcome State Fault Refusal :=
  fpBinary .s fsub (Instr.fsubS rd rs1 rs2 rm).bits rd rs1 rs2 rm s

/-- FMUL.S (R468). -/
def execFmulS (rd rs1 rs2 : FReg) (rm : Rm) (s : State) : Host.Outcome State Fault Refusal :=
  fpBinary .s fmul (Instr.fmulS rd rs1 rs2 rm).bits rd rs1 rs2 rm s

/-- FDIV.S (R469). -/
def execFdivS (rd rs1 rs2 : FReg) (rm : Rm) (s : State) : Host.Outcome State Fault Refusal :=
  fpBinary .s fdiv (Instr.fdivS rd rs1 rs2 rm).bits rd rs1 rs2 rm s

/-- FSQRT.S (R470). -/
def execFsqrtS (rd rs1 : FReg) (rm : Rm) (s : State) : Host.Outcome State Fault Refusal :=
  fpSqrt .s (Instr.fsqrtS rd rs1 rm).bits rd rs1 rm s

/-- FSGNJ.S (R471). -/
def execFsgnjS (rd rs1 rs2 : FReg) (s : State) : Host.Outcome State Fault Refusal :=
  fpExact .s (fun a b => (fsgnj a b, noFlags)) rd rs1 rs2 s

/-- FSGNJN.S (R472). -/
def execFsgnjnS (rd rs1 rs2 : FReg) (s : State) : Host.Outcome State Fault Refusal :=
  fpExact .s (fun a b => (fsgnjn a b, noFlags)) rd rs1 rs2 s

/-- FSGNJX.S (R473). -/
def execFsgnjxS (rd rs1 rs2 : FReg) (s : State) : Host.Outcome State Fault Refusal :=
  fpExact .s (fun a b => (fsgnjx a b, noFlags)) rd rs1 rs2 s

/-- FMIN.S (R474). -/
def execFminS (rd rs1 rs2 : FReg) (s : State) : Host.Outcome State Fault Refusal := fpExact .s fmin rd rs1 rs2 s

/-- FMAX.S (R475). -/
def execFmaxS (rd rs1 rs2 : FReg) (s : State) : Host.Outcome State Fault Refusal := fpExact .s fmax rd rs1 rs2 s

/-- FEQ.S (R479). -/
def execFeqS (rd : XReg) (rs1 rs2 : FReg) (s : State) : Host.Outcome State Fault Refusal :=
  fpCompare .s feq rd rs1 rs2 s

/-- FLT.S (R480). -/
def execFltS (rd : XReg) (rs1 rs2 : FReg) (s : State) : Host.Outcome State Fault Refusal :=
  fpCompare .s flt rd rs1 rs2 s

/-- FLE.S (R481). -/
def execFleS (rd : XReg) (rs1 rs2 : FReg) (s : State) : Host.Outcome State Fault Refusal :=
  fpCompare .s fle rd rs1 rs2 s

/-- FCLASS.S (R482). -/
def execFclassS (rd : XReg) (rs1 : FReg) (s : State) : Host.Outcome State Fault Refusal := fpClassify .s rd rs1 s

/-- FCVT.W.S (R476). -/
def execFcvtWS (rd : XReg) (rs1 : FReg) (rm : Rm) (s : State) : Host.Outcome State Fault Refusal :=
  fpToInt .s fcvtW (Instr.fcvtWS rd rs1 rm).bits rd rs1 rm s

/-- FCVT.S.W (R483). -/
def execFcvtSW (rd : FReg) (rs1 : XReg) (rm : Rm) (s : State) : Host.Outcome State Fault Refusal :=
  fpFromInt .s (fcvtOfW .s) (Instr.fcvtSW rd rs1 rm).bits rd rs1 rm s

/-- FCVT.WU.S (R477). -/
def execFcvtWuS (rd : XReg) (rs1 : FReg) (rm : Rm) (s : State) : Host.Outcome State Fault Refusal :=
  fpToInt .s fcvtWu (Instr.fcvtWuS rd rs1 rm).bits rd rs1 rm s

/-- FCVT.S.WU (R484). -/
def execFcvtSWu (rd : FReg) (rs1 : XReg) (rm : Rm) (s : State) : Host.Outcome State Fault Refusal :=
  fpFromInt .s (fcvtOfWu .s) (Instr.fcvtSWu rd rs1 rm).bits rd rs1 rm s

/-- FMV.X.W: raw bits (R478). -/
def execFmvXW (rd : XReg) (rs1 : FReg) (s : State) : Host.Outcome State Fault Refusal :=
  writeReg 4 rd (readRaw s.cpu .s rs1) s

/-- FMV.W.X (R485). -/
def execFmvWX (rd : FReg) (rs1 : XReg) (s : State) : Host.Outcome State Fault Refusal :=
  retire 4 (fpWrites s (fmt := .s) rd (s.cpu.readX rs1, noFlags)) s

end Sys2Proof.Machine
end

