-- ==== Sys2Proof/Machine/MulDiv.lean ====
section
/-! DEFINITION. The multiply and divide instructions (41_muldiv.md). -/
namespace Sys2Proof.Machine

/-- `trunc_32` of the upper part of an exact product: the floor of the product over 2^32 (R302, R303). -/
def highWord (product : Int) : Word := BitVec.ofInt 32 (product / 2 ^ 32)

/-- The quotient of DIV (R305): toward zero; all ones by zero, INT_MIN on overflow. -/
def divSigned (a b : Word) : Word :=
  if b = 0#32 then 0xFFFFFFFF#32
  else if a = 0x80000000#32 ∧ b = 0xFFFFFFFF#32 then 0x80000000#32
  else BitVec.ofInt 32 (a.toInt.tdiv b.toInt)

/-- The quotient of DIVU (R306). -/
def divUnsigned (a b : Word) : Word := if b = 0#32 then 0xFFFFFFFF#32 else BitVec.ofNat 32 (a.toNat / b.toNat)

/-- The remainder of REM (R307): the dividend by zero, 0 on overflow. -/
def remSigned (a b : Word) : Word :=
  if b = 0#32 then a
  else if a = 0x80000000#32 ∧ b = 0xFFFFFFFF#32 then 0#32
  else BitVec.ofInt 32 (a.toInt - b.toInt * a.toInt.tdiv b.toInt)

/-- The remainder of REMU (R308). -/
def remUnsigned (a b : Word) : Word := if b = 0#32 then a else BitVec.ofNat 32 (a.toNat % b.toNat)

/-- MUL (R301). -/
def execMul (rd rs1 rs2 : XReg) (s : State) : Host.Outcome State Fault Refusal :=
  writeReg 4 rd (BitVec.ofInt 32 ((s.cpu.readX rs1).toInt * (s.cpu.readX rs2).toInt)) s

/-- MULH (R302). -/
def execMulh (rd rs1 rs2 : XReg) (s : State) : Host.Outcome State Fault Refusal :=
  writeReg 4 rd (highWord ((s.cpu.readX rs1).toInt * (s.cpu.readX rs2).toInt)) s

/-- MULHSU (R303). -/
def execMulhsu (rd rs1 rs2 : XReg) (s : State) : Host.Outcome State Fault Refusal :=
  writeReg 4 rd (highWord ((s.cpu.readX rs1).toInt * ((s.cpu.readX rs2).toNat : Int))) s

/-- MULHU (R304). -/
def execMulhu (rd rs1 rs2 : XReg) (s : State) : Host.Outcome State Fault Refusal :=
  writeReg 4 rd (highWord (((s.cpu.readX rs1).toNat : Int) * ((s.cpu.readX rs2).toNat : Int))) s

/-- DIV (R305). -/
def execDiv (rd rs1 rs2 : XReg) (s : State) : Host.Outcome State Fault Refusal :=
  writeReg 4 rd (divSigned (s.cpu.readX rs1) (s.cpu.readX rs2)) s

/-- DIVU (R306). -/
def execDivu (rd rs1 rs2 : XReg) (s : State) : Host.Outcome State Fault Refusal :=
  writeReg 4 rd (divUnsigned (s.cpu.readX rs1) (s.cpu.readX rs2)) s

/-- REM (R307). -/
def execRem (rd rs1 rs2 : XReg) (s : State) : Host.Outcome State Fault Refusal :=
  writeReg 4 rd (remSigned (s.cpu.readX rs1) (s.cpu.readX rs2)) s

/-- REMU (R308). -/
def execRemu (rd rs1 rs2 : XReg) (s : State) : Host.Outcome State Fault Refusal :=
  writeReg 4 rd (remUnsigned (s.cpu.readX rs1) (s.cpu.readX rs2)) s

end Sys2Proof.Machine
end

