-- ==== Sys2Proof/Machine/Dispatch.lean ====
section
/-! DEFINITION. The dispatch: one arm per constructor of `Instr`, each one direct call of that instruction's meaning. -/
namespace Sys2Proof.Machine

def exec (i : Instr) (s : State) : Host.Outcome State Fault Refusal :=
  match i with
  | .lui rd imm => Sys2Proof.Machine.execLui rd imm s
  | .auipc rd imm => Sys2Proof.Machine.execAuipc rd imm s
  | .jal rd off => Sys2Proof.Machine.execJal rd off s
  | .jalr rd rs1 imm => Sys2Proof.Machine.execJalr rd rs1 imm s
  | .beq rs1 rs2 off => Sys2Proof.Machine.execBeq rs1 rs2 off s
  | .bne rs1 rs2 off => Sys2Proof.Machine.execBne rs1 rs2 off s
  | .blt rs1 rs2 off => Sys2Proof.Machine.execBlt rs1 rs2 off s
  | .bge rs1 rs2 off => Sys2Proof.Machine.execBge rs1 rs2 off s
  | .bltu rs1 rs2 off => Sys2Proof.Machine.execBltu rs1 rs2 off s
  | .bgeu rs1 rs2 off => Sys2Proof.Machine.execBgeu rs1 rs2 off s
  | .lb rd rs1 imm => Sys2Proof.Machine.execLb rd rs1 imm s
  | .lh rd rs1 imm => Sys2Proof.Machine.execLh rd rs1 imm s
  | .lw rd rs1 imm => Sys2Proof.Machine.execLw rd rs1 imm s
  | .lbu rd rs1 imm => Sys2Proof.Machine.execLbu rd rs1 imm s
  | .lhu rd rs1 imm => Sys2Proof.Machine.execLhu rd rs1 imm s
  | .sb rs2 rs1 imm => Sys2Proof.Machine.execSb rs2 rs1 imm s
  | .sh rs2 rs1 imm => Sys2Proof.Machine.execSh rs2 rs1 imm s
  | .sw rs2 rs1 imm => Sys2Proof.Machine.execSw rs2 rs1 imm s
  | .addi rd rs1 imm => Sys2Proof.Machine.execAddi rd rs1 imm s
  | .slti rd rs1 imm => Sys2Proof.Machine.execSlti rd rs1 imm s
  | .sltiu rd rs1 imm => Sys2Proof.Machine.execSltiu rd rs1 imm s
  | .xori rd rs1 imm => Sys2Proof.Machine.execXori rd rs1 imm s
  | .ori rd rs1 imm => Sys2Proof.Machine.execOri rd rs1 imm s
  | .andi rd rs1 imm => Sys2Proof.Machine.execAndi rd rs1 imm s
  | .slli rd rs1 shamt => Sys2Proof.Machine.execSlli rd rs1 shamt s
  | .srli rd rs1 shamt => Sys2Proof.Machine.execSrli rd rs1 shamt s
  | .srai rd rs1 shamt => Sys2Proof.Machine.execSrai rd rs1 shamt s
  | .add rd rs1 rs2 => Sys2Proof.Machine.execAdd rd rs1 rs2 s
  | .sub rd rs1 rs2 => Sys2Proof.Machine.execSub rd rs1 rs2 s
  | .sll rd rs1 rs2 => Sys2Proof.Machine.execSll rd rs1 rs2 s
  | .slt rd rs1 rs2 => Sys2Proof.Machine.execSlt rd rs1 rs2 s
  | .sltu rd rs1 rs2 => Sys2Proof.Machine.execSltu rd rs1 rs2 s
  | .xor rd rs1 rs2 => Sys2Proof.Machine.execXor rd rs1 rs2 s
  | .srl rd rs1 rs2 => Sys2Proof.Machine.execSrl rd rs1 rs2 s
  | .sra rd rs1 rs2 => Sys2Proof.Machine.execSra rd rs1 rs2 s
  | .or rd rs1 rs2 => Sys2Proof.Machine.execOr rd rs1 rs2 s
  | .and rd rs1 rs2 => Sys2Proof.Machine.execAnd rd rs1 rs2 s
  | .fence fm pred succ rs1 rd => Sys2Proof.Machine.execFence fm pred succ rs1 rd s
  | .ecall => Sys2Proof.Machine.execEcall s
  | .ebreak => Sys2Proof.Machine.execEbreak s
  | .mul rd rs1 rs2 => Sys2Proof.Machine.execMul rd rs1 rs2 s
  | .mulh rd rs1 rs2 => Sys2Proof.Machine.execMulh rd rs1 rs2 s
  | .mulhsu rd rs1 rs2 => Sys2Proof.Machine.execMulhsu rd rs1 rs2 s
  | .mulhu rd rs1 rs2 => Sys2Proof.Machine.execMulhu rd rs1 rs2 s
  | .div rd rs1 rs2 => Sys2Proof.Machine.execDiv rd rs1 rs2 s
  | .divu rd rs1 rs2 => Sys2Proof.Machine.execDivu rd rs1 rs2 s
  | .rem rd rs1 rs2 => Sys2Proof.Machine.execRem rd rs1 rs2 s
  | .remu rd rs1 rs2 => Sys2Proof.Machine.execRemu rd rs1 rs2 s
  | .lrW aq rl rd rs1 => Sys2Proof.Machine.execLrW aq rl rd rs1 s
  | .scW aq rl rd rs1 rs2 => Sys2Proof.Machine.execScW aq rl rd rs1 rs2 s
  | .amoswapW aq rl rd rs1 rs2 => Sys2Proof.Machine.execAmoswapW aq rl rd rs1 rs2 s
  | .amoaddW aq rl rd rs1 rs2 => Sys2Proof.Machine.execAmoaddW aq rl rd rs1 rs2 s
  | .amoxorW aq rl rd rs1 rs2 => Sys2Proof.Machine.execAmoxorW aq rl rd rs1 rs2 s
  | .amoandW aq rl rd rs1 rs2 => Sys2Proof.Machine.execAmoandW aq rl rd rs1 rs2 s
  | .amoorW aq rl rd rs1 rs2 => Sys2Proof.Machine.execAmoorW aq rl rd rs1 rs2 s
  | .amominW aq rl rd rs1 rs2 => Sys2Proof.Machine.execAmominW aq rl rd rs1 rs2 s
  | .amomaxW aq rl rd rs1 rs2 => Sys2Proof.Machine.execAmomaxW aq rl rd rs1 rs2 s
  | .amominuW aq rl rd rs1 rs2 => Sys2Proof.Machine.execAmominuW aq rl rd rs1 rs2 s
  | .amomaxuW aq rl rd rs1 rs2 => Sys2Proof.Machine.execAmomaxuW aq rl rd rs1 rs2 s
  | .csrrw rd csr rs1 => Sys2Proof.Machine.execCsrrw rd csr rs1 s
  | .csrrs rd csr rs1 => Sys2Proof.Machine.execCsrrs rd csr rs1 s
  | .csrrc rd csr rs1 => Sys2Proof.Machine.execCsrrc rd csr rs1 s
  | .csrrwi rd csr uimm => Sys2Proof.Machine.execCsrrwi rd csr uimm s
  | .csrrsi rd csr uimm => Sys2Proof.Machine.execCsrrsi rd csr uimm s
  | .csrrci rd csr uimm => Sys2Proof.Machine.execCsrrci rd csr uimm s
  | .fenceI imm rs1 rd => Sys2Proof.Machine.execFenceI imm rs1 rd s
  | .flw rd rs1 imm => Sys2Proof.Machine.execFlw rd rs1 imm s
  | .fsw rs2 rs1 imm => Sys2Proof.Machine.execFsw rs2 rs1 imm s
  | .fmaddS rd rs1 rs2 rs3 rm => Sys2Proof.Machine.execFmaddS rd rs1 rs2 rs3 rm s
  | .fmsubS rd rs1 rs2 rs3 rm => Sys2Proof.Machine.execFmsubS rd rs1 rs2 rs3 rm s
  | .fnmsubS rd rs1 rs2 rs3 rm => Sys2Proof.Machine.execFnmsubS rd rs1 rs2 rs3 rm s
  | .fnmaddS rd rs1 rs2 rs3 rm => Sys2Proof.Machine.execFnmaddS rd rs1 rs2 rs3 rm s
  | .faddS rd rs1 rs2 rm => Sys2Proof.Machine.execFaddS rd rs1 rs2 rm s
  | .fsubS rd rs1 rs2 rm => Sys2Proof.Machine.execFsubS rd rs1 rs2 rm s
  | .fmulS rd rs1 rs2 rm => Sys2Proof.Machine.execFmulS rd rs1 rs2 rm s
  | .fdivS rd rs1 rs2 rm => Sys2Proof.Machine.execFdivS rd rs1 rs2 rm s
  | .fsqrtS rd rs1 rm => Sys2Proof.Machine.execFsqrtS rd rs1 rm s
  | .fsgnjS rd rs1 rs2 => Sys2Proof.Machine.execFsgnjS rd rs1 rs2 s
  | .fsgnjnS rd rs1 rs2 => Sys2Proof.Machine.execFsgnjnS rd rs1 rs2 s
  | .fsgnjxS rd rs1 rs2 => Sys2Proof.Machine.execFsgnjxS rd rs1 rs2 s
  | .fminS rd rs1 rs2 => Sys2Proof.Machine.execFminS rd rs1 rs2 s
  | .fmaxS rd rs1 rs2 => Sys2Proof.Machine.execFmaxS rd rs1 rs2 s
  | .feqS rd rs1 rs2 => Sys2Proof.Machine.execFeqS rd rs1 rs2 s
  | .fltS rd rs1 rs2 => Sys2Proof.Machine.execFltS rd rs1 rs2 s
  | .fleS rd rs1 rs2 => Sys2Proof.Machine.execFleS rd rs1 rs2 s
  | .fclassS rd rs1 => Sys2Proof.Machine.execFclassS rd rs1 s
  | .fcvtWS rd rs1 rm => Sys2Proof.Machine.execFcvtWS rd rs1 rm s
  | .fcvtWuS rd rs1 rm => Sys2Proof.Machine.execFcvtWuS rd rs1 rm s
  | .fcvtSW rd rs1 rm => Sys2Proof.Machine.execFcvtSW rd rs1 rm s
  | .fcvtSWu rd rs1 rm => Sys2Proof.Machine.execFcvtSWu rd rs1 rm s
  | .fld rd rs1 imm => Sys2Proof.Machine.execFld rd rs1 imm s
  | .fsd rs2 rs1 imm => Sys2Proof.Machine.execFsd rs2 rs1 imm s
  | .fmaddD rd rs1 rs2 rs3 rm => Sys2Proof.Machine.execFmaddD rd rs1 rs2 rs3 rm s
  | .fmsubD rd rs1 rs2 rs3 rm => Sys2Proof.Machine.execFmsubD rd rs1 rs2 rs3 rm s
  | .fnmsubD rd rs1 rs2 rs3 rm => Sys2Proof.Machine.execFnmsubD rd rs1 rs2 rs3 rm s
  | .fnmaddD rd rs1 rs2 rs3 rm => Sys2Proof.Machine.execFnmaddD rd rs1 rs2 rs3 rm s
  | .faddD rd rs1 rs2 rm => Sys2Proof.Machine.execFaddD rd rs1 rs2 rm s
  | .fsubD rd rs1 rs2 rm => Sys2Proof.Machine.execFsubD rd rs1 rs2 rm s
  | .fmulD rd rs1 rs2 rm => Sys2Proof.Machine.execFmulD rd rs1 rs2 rm s
  | .fdivD rd rs1 rs2 rm => Sys2Proof.Machine.execFdivD rd rs1 rs2 rm s
  | .fsqrtD rd rs1 rm => Sys2Proof.Machine.execFsqrtD rd rs1 rm s
  | .fsgnjD rd rs1 rs2 => Sys2Proof.Machine.execFsgnjD rd rs1 rs2 s
  | .fsgnjnD rd rs1 rs2 => Sys2Proof.Machine.execFsgnjnD rd rs1 rs2 s
  | .fsgnjxD rd rs1 rs2 => Sys2Proof.Machine.execFsgnjxD rd rs1 rs2 s
  | .fminD rd rs1 rs2 => Sys2Proof.Machine.execFminD rd rs1 rs2 s
  | .fmaxD rd rs1 rs2 => Sys2Proof.Machine.execFmaxD rd rs1 rs2 s
  | .feqD rd rs1 rs2 => Sys2Proof.Machine.execFeqD rd rs1 rs2 s
  | .fltD rd rs1 rs2 => Sys2Proof.Machine.execFltD rd rs1 rs2 s
  | .fleD rd rs1 rs2 => Sys2Proof.Machine.execFleD rd rs1 rs2 s
  | .fclassD rd rs1 => Sys2Proof.Machine.execFclassD rd rs1 s
  | .fcvtWD rd rs1 rm => Sys2Proof.Machine.execFcvtWD rd rs1 rm s
  | .fcvtWuD rd rs1 rm => Sys2Proof.Machine.execFcvtWuD rd rs1 rm s
  | .fcvtDW rd rs1 rm => Sys2Proof.Machine.execFcvtDW rd rs1 rm s
  | .fcvtDWu rd rs1 rm => Sys2Proof.Machine.execFcvtDWu rd rs1 rm s
  | .flq rd rs1 imm => Sys2Proof.Machine.execFlq rd rs1 imm s
  | .fsq rs2 rs1 imm => Sys2Proof.Machine.execFsq rs2 rs1 imm s
  | .fmaddQ rd rs1 rs2 rs3 rm => Sys2Proof.Machine.execFmaddQ rd rs1 rs2 rs3 rm s
  | .fmsubQ rd rs1 rs2 rs3 rm => Sys2Proof.Machine.execFmsubQ rd rs1 rs2 rs3 rm s
  | .fnmsubQ rd rs1 rs2 rs3 rm => Sys2Proof.Machine.execFnmsubQ rd rs1 rs2 rs3 rm s
  | .fnmaddQ rd rs1 rs2 rs3 rm => Sys2Proof.Machine.execFnmaddQ rd rs1 rs2 rs3 rm s
  | .faddQ rd rs1 rs2 rm => Sys2Proof.Machine.execFaddQ rd rs1 rs2 rm s
  | .fsubQ rd rs1 rs2 rm => Sys2Proof.Machine.execFsubQ rd rs1 rs2 rm s
  | .fmulQ rd rs1 rs2 rm => Sys2Proof.Machine.execFmulQ rd rs1 rs2 rm s
  | .fdivQ rd rs1 rs2 rm => Sys2Proof.Machine.execFdivQ rd rs1 rs2 rm s
  | .fsqrtQ rd rs1 rm => Sys2Proof.Machine.execFsqrtQ rd rs1 rm s
  | .fsgnjQ rd rs1 rs2 => Sys2Proof.Machine.execFsgnjQ rd rs1 rs2 s
  | .fsgnjnQ rd rs1 rs2 => Sys2Proof.Machine.execFsgnjnQ rd rs1 rs2 s
  | .fsgnjxQ rd rs1 rs2 => Sys2Proof.Machine.execFsgnjxQ rd rs1 rs2 s
  | .fminQ rd rs1 rs2 => Sys2Proof.Machine.execFminQ rd rs1 rs2 s
  | .fmaxQ rd rs1 rs2 => Sys2Proof.Machine.execFmaxQ rd rs1 rs2 s
  | .feqQ rd rs1 rs2 => Sys2Proof.Machine.execFeqQ rd rs1 rs2 s
  | .fltQ rd rs1 rs2 => Sys2Proof.Machine.execFltQ rd rs1 rs2 s
  | .fleQ rd rs1 rs2 => Sys2Proof.Machine.execFleQ rd rs1 rs2 s
  | .fclassQ rd rs1 => Sys2Proof.Machine.execFclassQ rd rs1 s
  | .fcvtWQ rd rs1 rm => Sys2Proof.Machine.execFcvtWQ rd rs1 rm s
  | .fcvtWuQ rd rs1 rm => Sys2Proof.Machine.execFcvtWuQ rd rs1 rm s
  | .fcvtQW rd rs1 rm => Sys2Proof.Machine.execFcvtQW rd rs1 rm s
  | .fcvtQWu rd rs1 rm => Sys2Proof.Machine.execFcvtQWu rd rs1 rm s
  | .fmvXW rd rs1 => Sys2Proof.Machine.execFmvXW rd rs1 s
  | .fmvWX rd rs1 => Sys2Proof.Machine.execFmvWX rd rs1 s
  | .fcvtSD rd rs1 rm => Sys2Proof.Machine.execFcvtSD rd rs1 rm s
  | .fcvtDS rd rs1 rm => Sys2Proof.Machine.execFcvtDS rd rs1 rm s
  | .fcvtSQ rd rs1 rm => Sys2Proof.Machine.execFcvtSQ rd rs1 rm s
  | .fcvtQS rd rs1 rm => Sys2Proof.Machine.execFcvtQS rd rs1 rm s
  | .fcvtDQ rd rs1 rm => Sys2Proof.Machine.execFcvtDQ rd rs1 rm s
  | .fcvtQD rd rs1 rm => Sys2Proof.Machine.execFcvtQD rd rs1 rm s
  | .cAddi4spn rd imm => Sys2Proof.Machine.execCAddi4spn rd imm s
  | .cFld rd rs1 imm => Sys2Proof.Machine.execCFld rd rs1 imm s
  | .cLw rd rs1 imm => Sys2Proof.Machine.execCLw rd rs1 imm s
  | .cFlw rd rs1 imm => Sys2Proof.Machine.execCFlw rd rs1 imm s
  | .cFsd rs2 rs1 imm => Sys2Proof.Machine.execCFsd rs2 rs1 imm s
  | .cSw rs2 rs1 imm => Sys2Proof.Machine.execCSw rs2 rs1 imm s
  | .cFsw rs2 rs1 imm => Sys2Proof.Machine.execCFsw rs2 rs1 imm s
  | .cNop imm => Sys2Proof.Machine.execCNop imm s
  | .cAddi rd imm => Sys2Proof.Machine.execCAddi rd imm s
  | .cJal off => Sys2Proof.Machine.execCJal off s
  | .cLi rd imm => Sys2Proof.Machine.execCLi rd imm s
  | .cAddi16sp imm => Sys2Proof.Machine.execCAddi16sp imm s
  | .cLui rd imm => Sys2Proof.Machine.execCLui rd imm s
  | .cSrli rd shamt => Sys2Proof.Machine.execCSrli rd shamt s
  | .cSrai rd shamt => Sys2Proof.Machine.execCSrai rd shamt s
  | .cAndi rd imm => Sys2Proof.Machine.execCAndi rd imm s
  | .cSub rd rs2 => Sys2Proof.Machine.execCSub rd rs2 s
  | .cXor rd rs2 => Sys2Proof.Machine.execCXor rd rs2 s
  | .cOr rd rs2 => Sys2Proof.Machine.execCOr rd rs2 s
  | .cAnd rd rs2 => Sys2Proof.Machine.execCAnd rd rs2 s
  | .cJ off => Sys2Proof.Machine.execCJ off s
  | .cBeqz rs1 off => Sys2Proof.Machine.execCBeqz rs1 off s
  | .cBnez rs1 off => Sys2Proof.Machine.execCBnez rs1 off s
  | .cSlli rd shamt => Sys2Proof.Machine.execCSlli rd shamt s
  | .cFldsp rd imm => Sys2Proof.Machine.execCFldsp rd imm s
  | .cLwsp rd imm => Sys2Proof.Machine.execCLwsp rd imm s
  | .cFlwsp rd imm => Sys2Proof.Machine.execCFlwsp rd imm s
  | .cJr rs1 => Sys2Proof.Machine.execCJr rs1 s
  | .cMv rd rs2 => Sys2Proof.Machine.execCMv rd rs2 s
  | .cEbreak => Sys2Proof.Machine.execCEbreak s
  | .cJalr rs1 => Sys2Proof.Machine.execCJalr rs1 s
  | .cAdd rd rs2 => Sys2Proof.Machine.execCAdd rd rs2 s
  | .cFsdsp rs2 imm => Sys2Proof.Machine.execCFsdsp rs2 imm s
  | .cSwsp rs2 imm => Sys2Proof.Machine.execCSwsp rs2 imm s
  | .cFswsp rs2 imm => Sys2Proof.Machine.execCFswsp rs2 imm s

end Sys2Proof.Machine
end

