-- ==== Sys2Proof/Machine/Embedder.lean ====
section
/-! DEFINITION. What the embedder does between steps (10_state.md R58, R59; 60_exceptions.md R718; 70_reset_and_hazards.md
R801). -/
namespace Sys2Proof.Machine

/-- One action of the embedder or of another agent of the environment. -/
def EmbedderAction.apply (s : State) : EmbedderAction → State
  | .restore image => restoreImage image s
  | .setGates g => { s with env := { s.env with gates := g } }
  | .setSqrtModes m => { s with env := { s.env with sqrtModes := m } }
  | .setTrapAnswer a => { s with env := { s.env with onTrap := a } }
  | .writeMemory a v be => { s with env := s.env.store (wordAddr a) v be }
  | .dropReservation => { s with env := { s.env with reservation := none } }
  | .setCsr n v => { s with env := s.env.setCsr n v }
  | .setReplies r => { s with env := { s.env with replies := r } }

/-- Actions in order. -/
def applyActions (s : State) : List EmbedderAction → State
  | [] => s
  | a :: as => applyActions (a.apply s) as

/-- The embedder's turn before a step: the head of its schedule. -/
def embedderTurn (s : State) : State :=
  match s.schedule with
  | [] => s
  | acts :: rest => applyActions { s with schedule := rest } acts

/-- The state in which a step begins: after the embedder's turn, the record of requests empty. DESIGN CHOICE (log 11):
safe. -/
def beginStep (s : State) : State :=
  let s1 := embedderTurn s
  { s1 with env := { s1.env with requests := [] } }

end Sys2Proof.Machine
end

