-- ==== Sys2Proof/Machine/Fetch.lean ====
section
/-! DEFINITION. The front of a step: the charges, the alignment check, the fetch and the decode (60_exceptions.md R701 to
R706, 20_memory.md R91). -/
namespace Sys2Proof.Machine

/-- The pc may be fetched from: bit 0 is 0, and bit 1 as well unless C is enabled (R703). -/
def pcAligned (cfg : Config) (g : Gates) (pc : Word) : Bool :=
  !pc.getLsbD 0 && (!pc.getLsbD 1 || cEnabled cfg g)

/-- `FetchParcel(a)` (R91). -/
def fetchParcel (a : Word) (e : Env) : Attempt Parcel :=
  (readWord (wordAddr a) e).andThen fun w e =>
    .ok (if a.getLsbD 1 then w.extractLsb' 16 16 else w.extractLsb' 0 16) e

/-- The bits of the instruction at the pc and its length; the second parcel is fetched only when the first says so
(R704). -/
def fetchBits (pc : Word) (e : Env) : Attempt (Word × Nat) :=
  (fetchParcel pc e).andThen fun p0 e =>
    if p0.extractLsb' 0 2 = 0b11#2 then
      (fetchParcel (pc + 2#32) e).andThen fun p1 e => .ok ((p1 ++ p0).cast rfl, 4) e
    else .ok (p0.setWidth 32, 2) e

/-- `Decode`, an Illegal answer raising IllegalInstruction with the bits (R705). -/
def decodeOrRaise (cfg : Config) (g : Gates) (bits : Word) (len : Nat) (e : Env) : Attempt Instr :=
  match decodeStep cfg g bits len with
  | .ok i => .ok i e
  | .error _ => raise .illegalInstruction bits e

/-- Lines 1 to 6 of the step sequence (R701): the instruction to execute, or the trap. The gates are one value for the
whole step (R702). -/
def frontEnd (s : State) : Attempt Instr :=
  (charge .fetch s.env).andThen fun _ e =>
    if pcAligned s.cfg s.env.gates s.cpu.pc then
      (fetchBits s.cpu.pc e).andThen fun b e =>
        (decodeOrRaise s.cfg s.env.gates b.1 b.2 e).andThen fun i e =>
          (charge (.instr (Config.costCategory i)) e).andThen fun _ e => .ok i e
    else raise .instructionAddressMisaligned s.cpu.pc e

/-- The pc itself where a step can fetch from it, else the word it lies in. -/
def fetchablePc (s : State) : Word :=
  if pcAligned s.cfg s.env.gates s.cpu.pc then s.cpu.pc else wordAddr s.cpu.pc

/-- The state with an instruction's four bytes at the pc, no scripted answer and no embedder's turn before it. -/
def State.placeAtPc (s : State) (v : Word) : State :=
  let pc := fetchablePc s
  { s with
    cpu := { s.cpu with pc := pc }
    env := { s.env with mem := s.env.mem.writeWord pc v 0b1111#4, replies := [] }
    schedule := [] }

end Sys2Proof.Machine
end

