-- ==== Sys2Proof/Machine/Step.lean ====
section
/-! DEFINITION. One step (60_exceptions.md R701), and the placing of an instruction where the next step fetches it. -/
namespace Sys2Proof.Machine

/-- The instruction of the front end executes (R707, R708), or its trap is delivered (R709, R710). -/
def stepFrom (s : State) : Host.Outcome State Fault Refusal :=
  match frontEnd s with
  | .ok i e => exec i { s with env := e }
  | .trap t e => .next (deliver t { s with env := e })

/-- One step: the embedder's turn, then one retired instruction or one trap (R701). -/
def step (s : State) : Host.Outcome State Fault Refusal := stepFrom (beginStep s)

/-- The state in which the very next step fetches and runs the instruction whose bits are `w`, the bits above `nbits`
zero. It stands for the embedder's placing of a program (R803): DESIGN CHOICE (log 17), safe. -/
def State.withFetchWord (s : State) (nbits w : Nat) : State := s.placeAtPc (BitVec.ofNat 32 (w % 2 ^ nbits))

end Sys2Proof.Machine
end

