-- ==== Sys2Proof/Safety.lean ====
section
/-! DEFINITION. What counts as a safe run, in the terms the statements use: the well-formedness of the state, what an
instruction changes and leaves alone, what it asks of the environment, and what a correctly rounded result is. -/
namespace Sys2Proof.Machine

/-- The f registers hold FLEN bits: the rest of each slot is 0 (R49). -/
abbrev Cpu.wf (flen : Flen) (c : Cpu) : Prop := ∀ i : Fin 32, c.f[i] &&& ~~~(ones flen.bits) = 0#128

/-- The reserved word's address is a word address (R13, R58). -/
abbrev Env.reservationAligned (e : Env) : Prop := ∀ a, e.reservation = some a → wordAddr a = a

/-- A well-formed state. -/
structure State.Inv (s : State) : Prop where
  /-- Memory has its canonical form. -/
  mem : Memory.wf s.env.mem
  /-- The delegated CSRs have theirs. -/
  csrs : CsrFile.wf s.env.csrs
  reservation : s.env.reservationAligned
  regs : s.cpu.wf s.cfg.flen

/-! ### The answers an instruction meets -/

/-- The answer the environment's script holds for the k-th coming request. -/
def Env.reply (e : Env) (k : Nat) : Reply := e.replies.getD k .usual

/-- None of the next `n` requests is answered `EnvTrap` (R10). -/
def Env.noTrapIn (e : Env) (n : Nat) : Prop := ∀ k < n, ∀ t, e.reply k ≠ .envTrap t

/-- The next `n` requests get the answers of the environment's own data. -/
def Env.usualFor (e : Env) (n : Nat) : Prop := ∀ k < n, e.reply k = .usual

/-- The word a `ReadWord` of the word at `a` is answered with when it is the k-th coming request (R11, R90). -/
def Env.wordAt (e : Env) (k : Nat) (a : Word) : Word := (e.reply k).wordOr (e.mem.readWord a)

/-- The rounding mode of an instruction is `m`: its own, or the one in frm when rm is 111 (R407). -/
def RoundsBy (s : State) (rm : Rm) (m : RoundingMode) : Prop :=
  rm = .mode m ∨ rm = .dyn ∧ s.cpu.fcsr.extractLsb' 5 3 = (Rm.mode m).bits

/-! ### What changes and what does not -/

/-- `t` is `s` after an instruction that retired: the pc is `pc`, FCSR is `fcsr`, the x register and the f register named
in `x` and `f` hold the values given there (a write to x0 is dropped), and every other register, the configuration and
the embedder's schedule are as before (R700, R708). -/
structure Retires (s t : State) (pc : Word) (x : Option (XReg × Word)) (f : Option (FReg × BitVec 128))
    (fcsr : BitVec 8) : Prop where
  outcome : t.outcome = some .advanced
  pc : t.cpu.pc = pc
  x : ∀ r, t.cpu.readX r =
    match x with
    | some (rd, v) => if r = rd ∧ rd ≠ 0#5 then v else s.cpu.readX r
    | none => s.cpu.readX r
  f : ∀ r, t.cpu.readF r =
    match f with
    | some (rd, v) => if r = rd then v else s.cpu.readF r
    | none => s.cpu.readF r
  fcsr : t.cpu.fcsr = fcsr
  cfg : t.cfg = s.cfg
  schedule : t.schedule = s.schedule

/-- The word a request writes. -/
def Request.wordWritten : Request → Option Word
  | .writeWord a _ _ => some a
  | .charge _ | .readWord _ | .loadReserved _ | .storeReserved _ _ | .csrRead _ _ | .csrWrite _ _ _ | .sqrtMode _
  | .trap _ => none

/-- `e'` is `e` after the requests `qs`, in this order and no others, which stored the low `n` bytes of `v` at `addr`: the
byte at `addr` is the low byte of `v`, and so on upwards; every byte outside these reads as before; the reservation is gone
if one of the words written is the reserved one, and unchanged otherwise (R12, R83, R335); nothing else of the environment's
data changed: PRESUMED (log 13), unsafe, where `qs` is not empty. -/
structure Env.Stored (e e' : Env) (addr : Word) (n : Nat) (v : BitVec 128) (qs : List Request) : Prop where
  mem : ∀ b, e'.mem.readByte b =
    if (b - addr).toNat < n then v.extractLsb' (8 * (b - addr).toNat) 8 else e.mem.readByte b
  reservation : e'.reservation = e.reservation.filter fun r => qs.all fun q => q.wordWritten != some r
  gates : e'.gates = e.gates
  sqrtModes : e'.sqrtModes = e.sqrtModes
  csrs : e'.csrs = e.csrs
  onTrap : e'.onTrap = e.onTrap
  replies : e'.replies = e.replies.drop qs.length
  requests : e'.requests = e.requests ++ qs

/-- `e'` is `e` after the requests `qs`, in this order and no others, none of which changed the environment's data: every
byte of memory reads as before. Where `qs` is not empty, that none did is PRESUMED (log 13), unsafe: R80 and R90 let a read
have side effects. -/
structure Env.Asked (e e' : Env) (qs : List Request) : Prop where
  mem : ∀ b, e'.mem.readByte b = e.mem.readByte b
  reservation : e'.reservation = e.reservation
  gates : e'.gates = e.gates
  sqrtModes : e'.sqrtModes = e.sqrtModes
  csrs : e'.csrs = e.csrs
  onTrap : e'.onTrap = e.onTrap
  replies : e'.replies = e.replies.drop qs.length
  requests : e'.requests = e.requests ++ qs

/-- The outcome of a step that traps, by the environment's answer to `Trap` (R700, R710): the scripted one, or the usual
one. -/
def Traps (e : Env) (tr : Trap) (o : Option StepOutcome) : Prop :=
  match e.reply 0 with
  | .answer .continues => o = some (.trapped tr)
  | .answer .halts => o = some (.halted tr)
  | _ => (e.onTrap = .continues → o = some (.trapped tr)) ∧ (e.onTrap = .halts → o = some (.halted tr))

/-- `t` is `s` after the trap `tr` was delivered with no other request: no register changed, the pc stays, and the
environment was asked `Trap` once (R709, R710). That `Trap` changed nothing of the environment's data is PRESUMED (log 13),
unsafe. -/
structure Delivers (s t : State) (tr : Trap) : Prop where
  outcome : Traps s.env tr t.outcome
  cpu : t.cpu = s.cpu
  env : s.env.Asked t.env [.trap tr]
  cfg : t.cfg = s.cfg
  schedule : t.schedule = s.schedule

/-- A request that the environment may answer with an `EnvTrap` (R11 to R17): not `Trap`, which cannot fail (R710), nor
`SqrtMode`: DEDUCED (log 16), unsafe. -/
def Request.canFail : Request → Bool
  | .charge _ | .readWord _ | .writeWord _ _ _ | .loadReserved _ | .storeReserved _ _ | .csrRead _ _ | .csrWrite _ _ _ =>
    true
  | .sqrtMode _ | .trap _ => false

/-- `t` is `s` after the requests `qs`, the last of which was answered `EnvTrap(n)`: `Trap` followed with that value and
nothing else, no register changed and the pc stays (R709, R710, R713). Of the rest of the environment's data it says
nothing. -/
structure StoppedBy (s t : State) (qs : List Request) (n : Nat) : Prop where
  outcome : t.outcome = some (.trapped (.env n)) ∨ t.outcome = some (.halted (.env n))
  cpu : t.cpu = s.cpu
  requests : t.env.requests = s.env.requests ++ qs ++ [.trap (.env n)]

/-! ### A fetch -/

/-- The requests of a step up to the end of its fetch, for an instruction of `len` bytes at `pc` (R701, R704). -/
def fetchRequests (pc : Word) (len : Nat) : List Request :=
  .charge .fetch :: .readWord (wordAddr pc) :: if len = 4 then [.readWord (wordAddr (pc + 2#32))] else []

/-- In the state a step begins in, the bytes `bs` of one encoding are fetched: the pc may be fetched from, memory holds
them there, and the charge and the fetches get the answers of the environment's own data (R703, R704). -/
structure Fetches (s : State) (bs : List Byte) : Prop where
  even : s.cpu.pc.getLsbD 0 = false
  word : s.cpu.pc.getLsbD 1 = true → s.cfg.cImplemented = true ∧ s.env.gates.c = true
  bytes : ∀ k (h : k < bs.length), s.env.mem.readByte (s.cpu.pc + BitVec.ofNat 32 k) = bs[k]
  usual : s.env.usualFor (bs.length / 2 + 1)

/-! ### Compressed instructions (R601, R602) -/

/-- The x or f register a 3-bit field names (R601). -/
def cfield (r : CReg) : BitVec 5 := BitVec.ofNat 5 (8 + r.toNat)

/-- The 32-bit instruction a 16-bit one expands to (R605 to R639). -/
def expansion : Instr → Option Instr
  | .cAddi4spn rd imm => some (.addi (cfield rd) 2#5 (BitVec.ofNat 12 (4 * imm.toNat)))
  | .cFld rd rs1 imm => some (.fld (cfield rd) (cfield rs1) (BitVec.ofNat 12 (8 * imm.toNat)))
  | .cLw rd rs1 imm => some (.lw (cfield rd) (cfield rs1) (BitVec.ofNat 12 (4 * imm.toNat)))
  | .cFlw rd rs1 imm => some (.flw (cfield rd) (cfield rs1) (BitVec.ofNat 12 (4 * imm.toNat)))
  | .cFsd rs2 rs1 imm => some (.fsd (cfield rs2) (cfield rs1) (BitVec.ofNat 12 (8 * imm.toNat)))
  | .cSw rs2 rs1 imm => some (.sw (cfield rs2) (cfield rs1) (BitVec.ofNat 12 (4 * imm.toNat)))
  | .cFsw rs2 rs1 imm => some (.fsw (cfield rs2) (cfield rs1) (BitVec.ofNat 12 (4 * imm.toNat)))
  | .cNop imm => some (.addi 0#5 0#5 (imm.signExtend 12))
  | .cAddi rd imm => some (.addi rd rd (imm.signExtend 12))
  | .cJal off => some (.jal 1#5 (off.signExtend 20))
  | .cLi rd imm => some (.addi rd 0#5 (imm.signExtend 12))
  | .cAddi16sp imm => some (.addi 2#5 2#5 (BitVec.ofInt 12 (16 * imm.toInt)))
  | .cLui rd imm => some (.lui rd (imm.signExtend 20))
  | .cSrli rd shamt => some (.srli (cfield rd) (cfield rd) shamt)
  | .cSrai rd shamt => some (.srai (cfield rd) (cfield rd) shamt)
  | .cAndi rd imm => some (.andi (cfield rd) (cfield rd) (imm.signExtend 12))
  | .cSub rd rs2 => some (.sub (cfield rd) (cfield rd) (cfield rs2))
  | .cXor rd rs2 => some (.xor (cfield rd) (cfield rd) (cfield rs2))
  | .cOr rd rs2 => some (.or (cfield rd) (cfield rd) (cfield rs2))
  | .cAnd rd rs2 => some (.and (cfield rd) (cfield rd) (cfield rs2))
  | .cJ off => some (.jal 0#5 (off.signExtend 20))
  | .cBeqz rs1 off => some (.beq (cfield rs1) 0#5 (off.signExtend 12))
  | .cBnez rs1 off => some (.bne (cfield rs1) 0#5 (off.signExtend 12))
  | .cSlli rd shamt => some (.slli rd rd shamt)
  | .cFldsp rd imm => some (.fld rd 2#5 (BitVec.ofNat 12 (8 * imm.toNat)))
  | .cLwsp rd imm => some (.lw rd 2#5 (BitVec.ofNat 12 (4 * imm.toNat)))
  | .cFlwsp rd imm => some (.flw rd 2#5 (BitVec.ofNat 12 (4 * imm.toNat)))
  | .cJr rs1 => some (.jalr 0#5 rs1 0#12)
  | .cMv rd rs2 => some (.add rd 0#5 rs2)
  | .cEbreak => some .ebreak
  | .cJalr rs1 => some (.jalr 1#5 rs1 0#12)
  | .cAdd rd rs2 => some (.add rd rd rs2)
  | .cFsdsp rs2 imm => some (.fsd rs2 2#5 (BitVec.ofNat 12 (8 * imm.toNat)))
  | .cSwsp rs2 imm => some (.sw rs2 2#5 (BitVec.ofNat 12 (4 * imm.toNat)))
  | .cFswsp rs2 imm => some (.fsw rs2 2#5 (BitVec.ofNat 12 (4 * imm.toNat)))
  | _ => none

/-! ### Floating-point results -/

/-- What is written for a result: its boxed pattern, and its flags (R406, R416). -/
def boxedResult (s : State) {fmt : Fmt} (r : FpResult fmt) : BitVec 128 × BitVec 5 :=
  (boxed s.cfg.flen fmt r.1, r.2)

/-! ### Values and rounding (R403, R408 to R411) -/

/-- The number a finite pattern stands for (R403). -/
def finiteValue {fmt : Fmt} (v : BitVec fmt.width) : Option ℚ :=
  match unpack v with
  | .fin neg m e => some ((if neg then -1 else 1) * (m : ℚ) * 2 ^ e)
  | _ => none

/-- The number or infinity a pattern stands for; none for a NaN (R403). -/
def orderValue {fmt : Fmt} (v : BitVec fmt.width) : Option (WithBot (WithTop ℚ)) :=
  match unpack v with
  | .nan _ => none
  | .inf neg => some (if neg then ⊥ else ((⊤ : WithTop ℚ) : WithBot (WithTop ℚ)))
  | .fin neg m e => some (((((if neg then -1 else 1) * (m : ℚ) * 2 ^ e : ℚ) : WithTop ℚ)) : WithBot (WithTop ℚ))

/-- emax (R402). -/
def Fmt.emax (fmt : Fmt) : Int := fmt.bias

/-- A real of magnitude `ax` rounds to the power `p` or beyond, where `p - u` is the value just below `p` and `p` is even
(R408). -/
def Reaches (rm : RoundingMode) (neg : Bool) (ax p u : ℝ) : Prop :=
  match rm with
  | .rne | .rmm => p - u / 2 ≤ ax
  | .rtz => p ≤ ax
  | .rdn => if neg then p - u < ax else p ≤ ax
  | .rup => if neg then p ≤ ax else p - u < ax

/-- `x` overflows: rounded with no bound on the exponent, its magnitude exceeds MAX (R409). -/
def Overflows (fmt : Fmt) (rm : RoundingMode) (x : ℝ) : Prop :=
  Reaches rm (decide (x < 0)) |x| (2 ^ (Fmt.emax fmt + 1)) (2 ^ (Fmt.emax fmt - fmt.fracBits))

/-- `x` is tiny: rounded to precision p with no bound on the exponent, its magnitude is below 2^emin (R410). -/
def Tiny (fmt : Fmt) (rm : RoundingMode) (x : ℝ) : Prop :=
  ¬ Reaches rm (decide (x < 0)) |x| (2 ^ fmt.emin) (2 ^ (fmt.emin - fmt.precision))

/-- `y`, the value of the pattern `v`, is `x` rounded by the mode among the finite values of the format (R408). -/
def RoundedTo {fmt : Fmt} (rm : RoundingMode) (x : ℝ) (v : BitVec fmt.width) (y : ℝ) : Prop :=
  ∀ (u : BitVec fmt.width) (z : ℚ), finiteValue u = some z →
    match rm with
    | .rne => |y - x| ≤ |(z : ℝ) - x| ∧ (|y - x| = |(z : ℝ) - x| → y ≠ z → v.getLsbD 0 = false)
    | .rmm => |y - x| ≤ |(z : ℝ) - x| ∧ (|y - x| = |(z : ℝ) - x| → |(z : ℝ)| ≤ |y|)
    | .rtz => |y| ≤ |x| ∧ (|(z : ℝ)| ≤ |x| → |(z : ℝ)| ≤ |y|)
    | .rdn => y ≤ x ∧ ((z : ℝ) ≤ x → (z : ℝ) ≤ y)
    | .rup => x ≤ y ∧ (x ≤ z → y ≤ z)

/-- `r` is the nonzero real `x` rounded to the format by the mode, with its flags (R408 to R411). -/
structure CorrectlyRounded (fmt : Fmt) (rm : RoundingMode) (x : ℝ) (r : FpResult fmt) : Prop where
  /-- R409: infinity or MAX, with OF and NX. -/
  overflow : Overflows fmt rm x →
    r = (pack fmt (decide (x < 0))
      (match rm with
        | .rne | .rmm => fmt.infMagnitude
        | .rtz => fmt.infMagnitude - 1
        | .rdn => if x < 0 then fmt.infMagnitude else fmt.infMagnitude - 1
        | .rup => if x < 0 then fmt.infMagnitude - 1 else fmt.infMagnitude), flagOF ||| flagNX)
  /-- R408, R410, R411: a finite value of the sign of `x`; NX if inexact, UF if tiny as well. -/
  finite : ¬ Overflows fmt rm x → signOf r.1 = decide (x < 0) ∧ ∃ y : ℚ, finiteValue r.1 = some y ∧
    RoundedTo rm x r.1 y ∧ ((y : ℝ) = x → r.2 = noFlags) ∧
    ((y : ℝ) ≠ x → Tiny fmt rm x → r.2 = flagUF ||| flagNX) ∧ ((y : ℝ) ≠ x → ¬ Tiny fmt rm x → r.2 = flagNX)

end Sys2Proof.Machine
end

