-- ==== Sys2Proof/Certificates/Slice0/Obligations.lean ====
section
/-! DEFINITION. The statements for the provers, each with the rule of the spec it formalises. Where a list pairs
instructions with their results, the statement holds of every instruction of the list. -/
section
open Sys2Proof Sys2Proof.Machine

/-! ### Encoding -/

/-- Decoding the bytes of any well-formed instruction gives it back, whatever bytes follow (R120, R121, R146). -/
def Obligations.DecodeAfterEncode : Prop :=
  ∀ (i : Instr) (rest : List Byte), i.wf = true → decode (encode i ++ rest) = .ok (i, rest)

/-- Whatever decodes is well formed, and its bytes are the ones it encodes to: no two words are one instruction, and no
bit is dropped (R146). -/
def Obligations.EncodeAfterDecode : Prop :=
  ∀ (bs rest : List Byte) (i : Instr), decode bs = .ok (i, rest) → i.wf = true ∧ bs = encode i ++ rest

/-- Words written out in the spec's examples decode to the instruction the example names. -/
def Obligations.SpecWordsDecode : Prop :=
  (∀ p ∈ ([(0x123452B7#32, .lui 5#5 0x12345#20), (0x008000EF#32, .jal 1#5 4#20), (0xFE209CE3#32, .bne 1#5 2#5 0xFFC#12),
      (0xFE312E23#32, .sw 3#5 2#5 0xFFC#12), (0x40415093#32, .srai 1#5 2#5 4#5), (0x022091B3#32, .mulh 3#5 1#5 2#5),
      (0x184121AF#32, .scW 0#1 0#1 3#5 2#5 4#5), (0x003312F3#32, .csrrw 5#5 3#12 6#5)] : List (Word × Instr)),
    decode32 p.1 = .ok p.2) ∧
  ∀ p ∈ ([(0x0800#16, .cAddi4spn 0#3 4#8), (0x2480#16, .cFld 0#3 1#3 1#5), (0x40C0#16, .cLw 0#3 1#3 1#5)] :
      List (Parcel × Instr)),
    decode16 p.1 = .ok p.2

/-- An encoding is accepted at a step exactly when it is allocated, the gate of its extension is on and FLEN allows it;
a compressed one needs C_IMPLEMENTED and the gate of C as well, so no parcel is accepted without C (R136, R145, R600).
A CSR instruction on 0x001 to 0x003 is accepted here whatever FLEN and the gate of F are: that R145's check of it is made
at execution (FpCsrNeedsFpu) is DEDUCED (log 15). Each of the 181 instructions is named under the gate and the width that
govern it, a conversion between formats under the wider one (R136, R400). -/
def Obligations.GatesAndWidthsDecide : Prop :=
  (∀ (cfg : Config) (g : Gates) (bits : Word) (len : Nat) (i : Instr),
    decodeStep cfg g bits len = .ok i ↔
      (if len = 4 then decode32 bits else decode16 (bits.setWidth 16)) = .ok i ∧
        match i.ext with
        | .i | .zicsr | .zifencei => True
        | .m => g.m = true
        | .a => g.a = true
        | .f => g.f = true ∧ 32 ≤ cfg.flen.bits
        | .d => g.d = true ∧ 64 ≤ cfg.flen.bits
        | .q => g.q = true ∧ 128 ≤ cfg.flen.bits
        | .c => cfg.cImplemented = true ∧ g.c = true
        | .cf => cfg.cImplemented = true ∧ g.c = true ∧ g.f = true ∧ 32 ≤ cfg.flen.bits
        | .cd => cfg.cImplemented = true ∧ g.c = true ∧ g.d = true ∧ 64 ≤ cfg.flen.bits) ∧
  (∀ (cfg : Config) (g : Gates) (bits : Word), cfg.cImplemented = false ∨ g.c = false →
    ∃ e, decodeStep cfg g bits 2 = .error e) ∧
  ∀ (cfg : Config) (g : Gates) (rd rs1 rs2 rs3 shamt : BitVec 5) (rm : Rm) (d r r2 : CReg) (imm : BitVec 12)
    (upper : BitVec 20) (imm6 : BitVec 6) (imm8 : BitVec 8) (off11 : BitVec 11) (aq rl : BitVec 1) (fm pred succ : BitVec 4),
    let governs := fun (e : Ext) (gate : Prop) (l : List Instr) => ∀ i ∈ l, i.ext = e ∧
      ∀ (bits : Word) (len : Nat), (if len = 4 then decode32 bits else decode16 (bits.setWidth 16)) = .ok i →
        (decodeStep cfg g bits len = .ok i ↔ gate)
    governs .m (g.m = true) [.mul rd rs1 rs2, .mulh rd rs1 rs2, .mulhsu rd rs1 rs2, .mulhu rd rs1 rs2,
      .div rd rs1 rs2, .divu rd rs1 rs2, .rem rd rs1 rs2, .remu rd rs1 rs2] ∧
    governs .a (g.a = true) [.lrW aq rl rd rs1, .scW aq rl rd rs1 rs2, .amoswapW aq rl rd rs1 rs2,
      .amoaddW aq rl rd rs1 rs2, .amoxorW aq rl rd rs1 rs2, .amoandW aq rl rd rs1 rs2, .amoorW aq rl rd rs1 rs2,
      .amominW aq rl rd rs1 rs2, .amomaxW aq rl rd rs1 rs2, .amominuW aq rl rd rs1 rs2, .amomaxuW aq rl rd rs1 rs2] ∧
    governs .f (g.f = true ∧ 32 ≤ cfg.flen.bits) [.flw rd rs1 imm, .fsw rs2 rs1 imm, .fmaddS rd rs1 rs2 rs3 rm,
      .fmsubS rd rs1 rs2 rs3 rm, .fnmsubS rd rs1 rs2 rs3 rm, .fnmaddS rd rs1 rs2 rs3 rm, .faddS rd rs1 rs2 rm,
      .fsubS rd rs1 rs2 rm, .fmulS rd rs1 rs2 rm, .fdivS rd rs1 rs2 rm, .fsqrtS rd rs1 rm, .fsgnjS rd rs1 rs2,
      .fsgnjnS rd rs1 rs2, .fsgnjxS rd rs1 rs2, .fminS rd rs1 rs2, .fmaxS rd rs1 rs2, .feqS rd rs1 rs2,
      .fltS rd rs1 rs2, .fleS rd rs1 rs2, .fclassS rd rs1, .fcvtWS rd rs1 rm, .fcvtWuS rd rs1 rm, .fcvtSW rd rs1 rm,
      .fcvtSWu rd rs1 rm, .fmvXW rd rs1, .fmvWX rd rs1] ∧
    governs .d (g.d = true ∧ 64 ≤ cfg.flen.bits) [.fld rd rs1 imm, .fsd rs2 rs1 imm, .fmaddD rd rs1 rs2 rs3 rm,
      .fmsubD rd rs1 rs2 rs3 rm, .fnmsubD rd rs1 rs2 rs3 rm, .fnmaddD rd rs1 rs2 rs3 rm, .faddD rd rs1 rs2 rm,
      .fsubD rd rs1 rs2 rm, .fmulD rd rs1 rs2 rm, .fdivD rd rs1 rs2 rm, .fsqrtD rd rs1 rm, .fsgnjD rd rs1 rs2,
      .fsgnjnD rd rs1 rs2, .fsgnjxD rd rs1 rs2, .fminD rd rs1 rs2, .fmaxD rd rs1 rs2, .feqD rd rs1 rs2,
      .fltD rd rs1 rs2, .fleD rd rs1 rs2, .fclassD rd rs1, .fcvtWD rd rs1 rm, .fcvtWuD rd rs1 rm, .fcvtDW rd rs1 rm,
      .fcvtDWu rd rs1 rm, .fcvtSD rd rs1 rm, .fcvtDS rd rs1 rm] ∧
    governs .q (g.q = true ∧ 128 ≤ cfg.flen.bits) [.flq rd rs1 imm, .fsq rs2 rs1 imm, .fmaddQ rd rs1 rs2 rs3 rm,
      .fmsubQ rd rs1 rs2 rs3 rm, .fnmsubQ rd rs1 rs2 rs3 rm, .fnmaddQ rd rs1 rs2 rs3 rm, .faddQ rd rs1 rs2 rm,
      .fsubQ rd rs1 rs2 rm, .fmulQ rd rs1 rs2 rm, .fdivQ rd rs1 rs2 rm, .fsqrtQ rd rs1 rm, .fsgnjQ rd rs1 rs2,
      .fsgnjnQ rd rs1 rs2, .fsgnjxQ rd rs1 rs2, .fminQ rd rs1 rs2, .fmaxQ rd rs1 rs2, .feqQ rd rs1 rs2,
      .fltQ rd rs1 rs2, .fleQ rd rs1 rs2, .fclassQ rd rs1, .fcvtWQ rd rs1 rm, .fcvtWuQ rd rs1 rm, .fcvtQW rd rs1 rm,
      .fcvtQWu rd rs1 rm, .fcvtSQ rd rs1 rm, .fcvtQS rd rs1 rm, .fcvtDQ rd rs1 rm, .fcvtQD rd rs1 rm] ∧
    governs .c (cfg.cImplemented = true ∧ g.c = true) [.cAddi4spn d imm8, .cLw d r shamt, .cSw r2 r shamt,
      .cNop imm6, .cAddi rd imm6, .cJal off11, .cLi rd imm6, .cAddi16sp imm6, .cLui rd imm6, .cSrli d shamt,
      .cSrai d shamt, .cAndi d imm6, .cSub d r2, .cXor d r2, .cOr d r2, .cAnd d r2, .cJ off11, .cBeqz r imm8,
      .cBnez r imm8, .cSlli rd shamt, .cLwsp rd imm6, .cJr rs1, .cMv rd rs2, .cEbreak, .cJalr rs1, .cAdd rd rs2,
      .cSwsp rs2 imm6] ∧
    governs .cf (cfg.cImplemented = true ∧ g.c = true ∧ g.f = true ∧ 32 ≤ cfg.flen.bits) [.cFlw d r shamt,
      .cFsw r2 r shamt, .cFlwsp rd imm6, .cFswsp rs2 imm6] ∧
    governs .cd (cfg.cImplemented = true ∧ g.c = true ∧ g.d = true ∧ 64 ≤ cfg.flen.bits) [.cFld d r shamt,
      .cFsd r2 r shamt, .cFldsp rd imm6, .cFsdsp rs2 imm6] ∧
    governs .i True [.lui rd upper, .auipc rd upper, .jal rd upper, .jalr rd rs1 imm, .beq rs1 rs2 imm,
      .bne rs1 rs2 imm, .blt rs1 rs2 imm, .bge rs1 rs2 imm, .bltu rs1 rs2 imm, .bgeu rs1 rs2 imm, .lb rd rs1 imm,
      .lh rd rs1 imm, .lw rd rs1 imm, .lbu rd rs1 imm, .lhu rd rs1 imm, .sb rs2 rs1 imm, .sh rs2 rs1 imm,
      .sw rs2 rs1 imm, .addi rd rs1 imm, .slti rd rs1 imm, .sltiu rd rs1 imm, .xori rd rs1 imm, .ori rd rs1 imm,
      .andi rd rs1 imm, .slli rd rs1 shamt, .srli rd rs1 shamt, .srai rd rs1 shamt, .add rd rs1 rs2, .sub rd rs1 rs2,
      .sll rd rs1 rs2, .slt rd rs1 rs2, .sltu rd rs1 rs2, .xor rd rs1 rs2, .srl rd rs1 rs2, .sra rd rs1 rs2,
      .or rd rs1 rs2, .and rd rs1 rs2, .fence fm pred succ rs1 rd, .ecall, .ebreak] ∧
    governs .zicsr True [.csrrw rd imm rs1, .csrrs rd imm rs1, .csrrc rd imm rs1, .csrrwi rd imm rs1,
      .csrrsi rd imm rs1, .csrrci rd imm rs1] ∧
    governs .zifencei True [.fenceI imm rs1 rd]

/-- The unallocated spaces of 32-bit words are illegal: other major opcodes, custom and long ones among them (R133, R140);
SYSTEM words with funct3 000 other than ECALL and EBREAK, and funct3 100 (R139); fmt 10 (R144); a static rm of 101 or 110
(R137); function fields no row has (R142), the selectors of OP-FP among them (R134): rs2 of FSQRT, of the conversions
(equal to fmt in one between formats) and of FMV and FCLASS, funct3 of sign injection, extremes, comparisons, FMV and
FCLASS, and an FMV whose fmt is not 00. -/
def Obligations.UnallocatedWordsRejected : Prop :=
  ∀ w : Word,
    let opcode := w.extractLsb' 0 7
    let funct3 := w.extractLsb' 12 3
    let rs2 := w.extractLsb' 20 5
    let fmt := w.extractLsb' 25 2
    let funct7 := w.extractLsb' 25 7
    let funct5 := w.extractLsb' 27 5
    let fused := opcode ∈ [0x43#7, 0x47#7, 0x4b#7, 0x4f#7]
    opcode ∉ [0x03#7, 0x07#7, 0x0f#7, 0x13#7, 0x17#7, 0x23#7, 0x27#7, 0x2f#7, 0x33#7, 0x37#7, 0x43#7, 0x47#7, 0x4b#7,
        0x4f#7, 0x53#7, 0x63#7, 0x67#7, 0x6f#7, 0x73#7] ∨
      opcode = 0x73#7 ∧ funct3 = 0#3 ∧ w ≠ 0x00000073#32 ∧ w ≠ 0x00100073#32 ∨
      opcode = 0x73#7 ∧ funct3 = 4#3 ∨
      (fused ∨ opcode = 0x53#7) ∧ fmt = 2#2 ∨
      (fused ∨ opcode = 0x53#7 ∧ funct5 ∈ [0x00#5, 0x01#5, 0x02#5, 0x03#5, 0x0b#5, 0x08#5, 0x18#5, 0x1a#5]) ∧
        funct3 ∈ [5#3, 6#3] ∨
      opcode = 0x67#7 ∧ funct3 ≠ 0#3 ∨
      opcode = 0x03#7 ∧ funct3 ∈ [3#3, 6#3, 7#3] ∨
      opcode = 0x23#7 ∧ 2 < funct3.toNat ∨
      opcode = 0x63#7 ∧ funct3 ∈ [2#3, 3#3] ∨
      opcode = 0x0f#7 ∧ 1 < funct3.toNat ∨
      opcode ∈ [0x07#7, 0x27#7] ∧ funct3 ∉ [2#3, 3#3, 4#3] ∨
      opcode = 0x13#7 ∧ funct3 = 1#3 ∧ funct7 ≠ 0#7 ∨
      opcode = 0x13#7 ∧ funct3 = 5#3 ∧ funct7 ∉ [0#7, 0x20#7] ∨
      opcode = 0x33#7 ∧ funct7 ∉ [0#7, 1#7, 0x20#7] ∨
      opcode = 0x33#7 ∧ funct7 = 0x20#7 ∧ funct3 ∉ [0#3, 5#3] ∨
      opcode = 0x2f#7 ∧ funct3 ≠ 2#3 ∨
      opcode = 0x2f#7 ∧ funct5 = 2#5 ∧ rs2 ≠ 0#5 ∨
      opcode = 0x2f#7 ∧ funct5 ∉ [0#5, 1#5, 2#5, 3#5, 4#5, 8#5, 0xc#5, 0x10#5, 0x14#5, 0x18#5, 0x1c#5] ∨
      opcode = 0x53#7 ∧ funct5 ∉ [0#5, 1#5, 2#5, 3#5, 4#5, 5#5, 8#5, 0xb#5, 0x14#5, 0x18#5, 0x1a#5, 0x1c#5, 0x1e#5] ∨
      opcode = 0x53#7 ∧ funct5 = 0xb#5 ∧ rs2 ≠ 0#5 ∨
      opcode = 0x53#7 ∧ funct5 = 8#5 ∧ (rs2 ∉ [0#5, 1#5, 3#5] ∨ rs2 = fmt.setWidth 5) ∨
      opcode = 0x53#7 ∧ funct5 ∈ [0x18#5, 0x1a#5] ∧ rs2 ∉ [0#5, 1#5] ∨
      opcode = 0x53#7 ∧ funct5 ∈ [4#5, 0x14#5] ∧ funct3 ∉ [0#3, 1#3, 2#3] ∨
      opcode = 0x53#7 ∧ funct5 = 5#5 ∧ funct3 ∉ [0#3, 1#3] ∨
      opcode = 0x53#7 ∧ funct5 = 0x1c#5 ∧ (rs2 ≠ 0#5 ∨ funct3 ∉ [0#3, 1#3] ∨ funct3 = 0#3 ∧ fmt ≠ 0#2) ∨
      opcode = 0x53#7 ∧ funct5 = 0x1e#5 ∧ (rs2 ≠ 0#5 ∨ funct3 ≠ 0#3 ∨ fmt ≠ 0#2) →
    ∃ e, decode32 w = .error e

/-- The reserved encodings of the 16-bit space are illegal, the all-zero parcel among them (R604, R640). -/
def Obligations.ReservedParcelsRejected : Prop :=
  ∀ p : Parcel,
    let quadrant := p.extractLsb' 0 2
    let funct3 := p.extractLsb' 13 3
    let bit12 := p.extractLsb' 12 1
    let rd := p.extractLsb' 7 5
    let low := p.extractLsb' 2 5
    quadrant = 0#2 ∧ funct3 = 0#3 ∧ p.extractLsb' 5 8 = 0#8 ∨
      quadrant = 0#2 ∧ funct3 = 4#3 ∨
      quadrant = 1#2 ∧ funct3 = 3#3 ∧ bit12 = 0#1 ∧ low = 0#5 ∨
      quadrant = 1#2 ∧ funct3 = 4#3 ∧ bit12 = 1#1 ∧ p.extractLsb' 10 2 ≠ 2#2 ∨
      quadrant = 2#2 ∧ funct3 = 0#3 ∧ bit12 = 1#1 ∨
      quadrant = 2#2 ∧ funct3 = 2#3 ∧ rd = 0#5 ∨
      quadrant = 2#2 ∧ funct3 = 4#3 ∧ bit12 = 0#1 ∧ rd = 0#5 ∧ low = 0#5 →
    decode16 p = .error .reservedCompressed

/-! ### Integer results -/

/-- The ten register-register instructions (R232 to R241): the result in rd, and nothing else but the pc. -/
def Obligations.RegisterArithmetic : Prop :=
  ∀ (s : State) (rd rs1 rs2 : XReg),
    let a := s.cpu.readX rs1
    let b := s.cpu.readX rs2
    ∀ p ∈ ([(.add rd rs1 rs2, BitVec.ofNat 32 (a.toNat + b.toNat)), (.sub rd rs1 rs2, BitVec.ofInt 32 (a.toInt - b.toInt)),
        (.sll rd rs1 rs2, BitVec.ofNat 32 (a.toNat * 2 ^ (b.toNat % 32))),
        (.slt rd rs1 rs2, if a.toInt < b.toInt then 1#32 else 0#32),
        (.sltu rd rs1 rs2, if a.toNat < b.toNat then 1#32 else 0#32), (.xor rd rs1 rs2, a ^^^ b),
        (.srl rd rs1 rs2, BitVec.ofNat 32 (a.toNat / 2 ^ (b.toNat % 32))),
        (.sra rd rs1 rs2, BitVec.ofInt 32 (a.toInt / 2 ^ (b.toNat % 32))), (.or rd rs1 rs2, a ||| b),
        (.and rd rs1 rs2, a &&& b)] : List (Instr × Word)),
      ∃ t, exec p.1 s = .next t ∧ Retires s t (s.cpu.pc + 4#32) (some (rd, p.2)) none s.cpu.fcsr ∧ s.env.Asked t.env []

/-- The nine register-immediate instructions, LUI and AUIPC (R205, R206, R223 to R231): the result in rd, and nothing
else but the pc. -/
def Obligations.ImmediateArithmetic : Prop :=
  ∀ (s : State) (rd rs1 : XReg) (imm : BitVec 12) (shamt : BitVec 5) (upper : BitVec 20),
    let a := s.cpu.readX rs1
    let b := imm.signExtend 32
    let u := BitVec.ofNat 32 (upper.toNat * 4096)
    ∀ p ∈ ([(.addi rd rs1 imm, BitVec.ofInt 32 (a.toInt + imm.toInt)),
        (.slti rd rs1 imm, if a.toInt < imm.toInt then 1#32 else 0#32),
        (.sltiu rd rs1 imm, if a.toNat < b.toNat then 1#32 else 0#32), (.xori rd rs1 imm, a ^^^ b),
        (.ori rd rs1 imm, a ||| b), (.andi rd rs1 imm, a &&& b),
        (.slli rd rs1 shamt, BitVec.ofNat 32 (a.toNat * 2 ^ shamt.toNat)),
        (.srli rd rs1 shamt, BitVec.ofNat 32 (a.toNat / 2 ^ shamt.toNat)),
        (.srai rd rs1 shamt, BitVec.ofInt 32 (a.toInt / 2 ^ shamt.toNat)), (.lui rd upper, u),
        (.auipc rd upper, s.cpu.pc + u)] : List (Instr × Word)),
      ∃ t, exec p.1 s = .next t ∧ Retires s t (s.cpu.pc + 4#32) (some (rd, p.2)) none s.cpu.fcsr ∧ s.env.Asked t.env []

/-- The eight instructions of M (R301 to R308), division by zero and signed overflow included: the result in rd, no trap,
and nothing else but the pc. -/
def Obligations.MultiplyDivide : Prop :=
  ∀ (s : State) (rd rs1 rs2 : XReg),
    let a := s.cpu.readX rs1
    let b := s.cpu.readX rs2
    ∀ p ∈ ([(.mul rd rs1 rs2, a * b),
        (.mulh rd rs1 rs2, (a.signExtend 64 * b.signExtend 64).extractLsb' 32 32),
        (.mulhsu rd rs1 rs2, (a.signExtend 64 * b.setWidth 64).extractLsb' 32 32),
        (.mulhu rd rs1 rs2, (a.setWidth 64 * b.setWidth 64).extractLsb' 32 32),
        (.div rd rs1 rs2, if b = 0#32 then 0xFFFFFFFF#32 else a.sdiv b),
        (.divu rd rs1 rs2, if b = 0#32 then 0xFFFFFFFF#32 else a / b),
        (.rem rd rs1 rs2, if b = 0#32 then a else a.srem b),
        (.remu rd rs1 rs2, if b = 0#32 then a else a % b)] : List (Instr × Word)),
      ∃ t, exec p.1 s = .next t ∧ Retires s t (s.cpu.pc + 4#32) (some (rd, p.2)) none s.cpu.fcsr ∧ s.env.Asked t.env []

/-- The division identity (R309): exact in signed and in unsigned arithmetic where nothing overflows, and modulo 2^32 on
every pair of operands. -/
def Obligations.DivisionIdentity : Prop :=
  ∀ a b : Word,
    (b ≠ 0#32 → ¬ (a = 0x80000000#32 ∧ b = 0xFFFFFFFF#32) →
      a.toInt = (divSigned a b).toInt * b.toInt + (remSigned a b).toInt) ∧
    (b ≠ 0#32 → a.toNat = (divUnsigned a b).toNat * b.toNat + (remUnsigned a b).toNat) ∧
    a = divSigned a b * b + remSigned a b ∧ a = divUnsigned a b * b + remUnsigned a b

/-- The jumps and their compressed forms (R202, R203, R207, R208, R614, R625, R632, R635): the target from the old
registers, bit 0 of an indirect one cleared, the link the address of the next instruction; a misaligned target traps at
none of them. -/
def Obligations.JumpsLink : Prop :=
  ∀ (s : State) (rd rs1 : XReg) (imm : BitVec 12) (off : BitVec 20) (off11 : BitVec 11),
    let indirect := fun b : Word => BitVec.ofNat 32 (2 * ((s.cpu.readX rs1 + b).toNat / 2))
    ∀ p ∈ ([(.jal rd off, 4#32, rd, s.cpu.pc + BitVec.ofInt 32 (2 * off.toInt)),
        (.jalr rd rs1 imm, 4#32, rd, indirect (imm.signExtend 32)),
        (.cJal off11, 2#32, 1#5, s.cpu.pc + BitVec.ofInt 32 (2 * off11.toInt)),
        (.cJ off11, 2#32, 0#5, s.cpu.pc + BitVec.ofInt 32 (2 * off11.toInt)), (.cJr rs1, 2#32, 0#5, indirect 0#32),
        (.cJalr rs1, 2#32, 1#5, indirect 0#32)] : List (Instr × Word × XReg × Word)),
      ∃ t, exec p.1 s = .next t ∧
        Retires s t p.2.2.2 (some (p.2.2.1, s.cpu.pc + p.2.1)) none s.cpu.fcsr ∧ s.env.Asked t.env []

/-- The branches (R202, R209 to R214) and, by their expansions, the compressed ones (R602, R626, R627): the pc goes to the
target when the condition holds and to the next instruction otherwise, and nothing else changes. -/
def Obligations.BranchesChoose : Prop :=
  ∀ (s : State) (rs1 rs2 : XReg) (off : BitVec 12) (c1 : CReg) (off8 : BitVec 8),
    let a := s.cpu.readX rs1
    let b := s.cpu.readX rs2
    let c := s.cpu.readX (cfield c1)
    ∀ p ∈ ([(.beq rs1 rs2 off, 4#32, decide (a = b), off.toInt), (.bne rs1 rs2 off, 4#32, decide (a ≠ b), off.toInt),
        (.blt rs1 rs2 off, 4#32, decide (a.toInt < b.toInt), off.toInt),
        (.bge rs1 rs2 off, 4#32, decide (b.toInt ≤ a.toInt), off.toInt),
        (.bltu rs1 rs2 off, 4#32, decide (a.toNat < b.toNat), off.toInt),
        (.bgeu rs1 rs2 off, 4#32, decide (b.toNat ≤ a.toNat), off.toInt),
        (.cBeqz c1 off8, 2#32, decide (c = 0#32), off8.toInt), (.cBnez c1 off8, 2#32, decide (c ≠ 0#32), off8.toInt)] :
        List (Instr × Word × Bool × Int)),
      ∃ t, exec p.1 s = .next t ∧
        Retires s t (if p.2.2.1 then s.cpu.pc + BitVec.ofInt 32 (2 * p.2.2.2) else s.cpu.pc + p.2.1) none none
          s.cpu.fcsr ∧ s.env.Asked t.env []

/-- The compressed instructions on integer registers only (R605, R612, R613, R615 to R624, R628, R633, R636): the result
in the destination, and nothing else but the pc, which advances by 2. -/
def Obligations.CompressedArithmetic : Prop :=
  ∀ (s : State) (rd rs2 : XReg) (d r : CReg) (imm : BitVec 6) (imm8 : BitVec 8) (shamt : BitVec 5),
    let a := s.cpu.readX rd
    let b := s.cpu.readX (cfield d)
    let c := s.cpu.readX (cfield r)
    let sp := s.cpu.readX 2#5
    ∀ p ∈ ([(.cAddi4spn d imm8, cfield d, sp + BitVec.ofNat 32 (4 * imm8.toNat)), (.cNop imm, 0#5, 0#32),
        (.cAddi rd imm, rd, a + BitVec.ofInt 32 imm.toInt), (.cLi rd imm, rd, BitVec.ofInt 32 imm.toInt),
        (.cAddi16sp imm, 2#5, sp + BitVec.ofInt 32 (16 * imm.toInt)),
        (.cLui rd imm, rd, BitVec.ofInt 32 (4096 * imm.toInt)),
        (.cSrli d shamt, cfield d, BitVec.ofNat 32 (b.toNat / 2 ^ shamt.toNat)),
        (.cSrai d shamt, cfield d, BitVec.ofInt 32 (b.toInt / 2 ^ shamt.toNat)),
        (.cAndi d imm, cfield d, b &&& imm.signExtend 32), (.cSub d r, cfield d, b - c), (.cXor d r, cfield d, b ^^^ c),
        (.cOr d r, cfield d, b ||| c), (.cAnd d r, cfield d, b &&& c),
        (.cSlli rd shamt, rd, BitVec.ofNat 32 (a.toNat * 2 ^ shamt.toNat)), (.cMv rd rs2, rd, s.cpu.readX rs2),
        (.cAdd rd rs2, rd, a + s.cpu.readX rs2)] : List (Instr × XReg × Word)),
      ∃ t, exec p.1 s = .next t ∧ Retires s t (s.cpu.pc + 2#32) (some p.2) none s.cpu.fcsr ∧ s.env.Asked t.env []

/-- A compressed instruction that is no jump or branch does exactly what its expansion does, but for its length: the same
requests, outcome and registers, the pc past its own two bytes, or unchanged when it traps (R602). -/
def Obligations.CompressedExpands : Prop :=
  ∀ (s : State) (c e : Instr), expansion c = some e →
    (∀ off rs1 rs2 o8, c ≠ .cJal off ∧ c ≠ .cJ off ∧ c ≠ .cJr rs1 ∧ c ≠ .cJalr rs1 ∧ c ≠ .cBeqz rs2 o8 ∧ c ≠ .cBnez rs2 o8) →
    ∃ t u, exec c s = .next t ∧ exec e s = .next u ∧
      t = { u with cpu := { u.cpu with pc := if u.outcome = some .advanced then s.cpu.pc + 2#32 else s.cpu.pc } }

/-! ### Memory -/

/-- The integer loads and their compressed forms (R84, R215 to R219, R607, R630): one `ReadWord` of the word the address
lies in, the bytes of the access out of the answer, extended into rd. That the answered read changed no byte of memory, no
reservation and nothing else of the environment's data is PRESUMED (log 13), unsafe: R80, R90 and R215 let a read have side
effects. -/
def Obligations.IntegerLoads : Prop :=
  ∀ (s : State) (rd rs1 : XReg) (imm : BitVec 12) (d r : CReg) (imm5 : BitVec 5) (imm6 : BitVec 6),
    let a := s.cpu.readX rs1 + imm.signExtend 32
    let ca := s.cpu.readX (cfield r) + BitVec.ofNat 32 (4 * imm5.toNat)
    let sa := s.cpu.readX 2#5 + BitVec.ofNat 32 (4 * imm6.toNat)
    let w := fun a : Word => s.env.wordAt 0 (wordAddr a)
    let byte := (w a).extractLsb' (8 * (a.toNat % 4)) 8
    let half := (w a).extractLsb' (8 * (a.toNat % 4)) 16
    s.env.noTrapIn 1 →
    ∀ p ∈ ([(.lb rd rs1 imm, 4#32, 1, a, rd, byte.signExtend 32), (.lbu rd rs1 imm, 4#32, 1, a, rd, byte.setWidth 32),
        (.lh rd rs1 imm, 4#32, 2, a, rd, half.signExtend 32), (.lhu rd rs1 imm, 4#32, 2, a, rd, half.setWidth 32),
        (.lw rd rs1 imm, 4#32, 4, a, rd, w a), (.cLw d r imm5, 2#32, 4, ca, cfield d, w ca),
        (.cLwsp rd imm6, 2#32, 4, sa, rd, w sa)] : List (Instr × Word × Nat × Word × XReg × Word)),
      p.2.2.2.1.toNat % p.2.2.1 = 0 →
      ∃ t, exec p.1 s = .next t ∧ Retires s t (s.cpu.pc + p.2.1) (some p.2.2.2.2) none s.cpu.fcsr ∧
        s.env.Asked t.env [.readWord (wordAddr p.2.2.2.1)]

/-- The integer stores and their compressed forms (R85, R220 to R222, R610, R638): one masked `WriteWord`, which stores the
low bytes of rs2 at the effective address and touches no other byte. That the answered write changed nothing of the
environment's data but the bytes its rule names and the reservation is PRESUMED (log 13), unsafe: R80 lets an access have
side effects. -/
def Obligations.IntegerStores : Prop :=
  ∀ (s : State) (rs2 rs1 : XReg) (imm : BitVec 12) (d r : CReg) (imm5 : BitVec 5) (imm6 : BitVec 6),
    let a := s.cpu.readX rs1 + imm.signExtend 32
    let ca := s.cpu.readX (cfield r) + BitVec.ofNat 32 (4 * imm5.toNat)
    let sa := s.cpu.readX 2#5 + BitVec.ofNat 32 (4 * imm6.toNat)
    let v := s.cpu.readX rs2
    let k := a.toNat % 4
    Memory.wf s.env.mem → s.env.noTrapIn 1 →
    ∀ p ∈ ([(.sb rs2 rs1 imm, 4#32, 1, a, v, .writeWord (wordAddr a) ((v &&& 0xFF#32) <<< (8 * k)) (0b0001#4 <<< k)),
        (.sh rs2 rs1 imm, 4#32, 2, a, v, .writeWord (wordAddr a) ((v &&& 0xFFFF#32) <<< (8 * k)) (0b0011#4 <<< k)),
        (.sw rs2 rs1 imm, 4#32, 4, a, v, .writeWord a v 0b1111#4),
        (.cSw d r imm5, 2#32, 4, ca, s.cpu.readX (cfield d), .writeWord ca (s.cpu.readX (cfield d)) 0b1111#4),
        (.cSwsp rs2 imm6, 2#32, 4, sa, v, .writeWord sa v 0b1111#4)] :
        List (Instr × Word × Nat × Word × Word × Request)),
      p.2.2.2.1.toNat % p.2.2.1 = 0 →
      ∃ t, exec p.1 s = .next t ∧ Retires s t (s.cpu.pc + p.2.1) none none s.cpu.fcsr ∧
        s.env.Stored t.env p.2.2.2.1 p.2.2.1 (p.2.2.2.2.1.setWidth 128) [p.2.2.2.2.2]

/-- The FP loads and their compressed forms (R84, R432): one, two or four `ReadWord` requests in ascending order, the first
word the least significant, the value boxed into the destination, no flag. That the answered reads changed nothing of the
environment's data is PRESUMED (log 13), unsafe: R80 and R90 let a read have side effects. -/
def Obligations.FpLoads : Prop :=
  ∀ (s : State) (rd : FReg) (rs1 : XReg) (imm : BitVec 12) (d r : CReg) (imm5 : BitVec 5) (imm6 : BitVec 6),
    let a := s.cpu.readX rs1 + imm.signExtend 32
    let c := s.cpu.readX (cfield r)
    let sp := s.cpu.readX 2#5
    let w := fun (a : Word) (k : Nat) => s.env.wordAt k (a + BitVec.ofNat 32 (4 * k))
    let single := fun a : Word => (boxedResult s (fmt := .s) (w a 0, noFlags)).1
    let double := fun a : Word => (boxedResult s (fmt := .d) (w a 1 ++ w a 0, noFlags)).1
    let quad := fun a : Word => (boxedResult s (fmt := .q) (w a 3 ++ w a 2 ++ w a 1 ++ w a 0, noFlags)).1
    ∀ p ∈ ([(.flw rd rs1 imm, 4#32, 1, a, rd, single a), (.fld rd rs1 imm, 4#32, 2, a, rd, double a),
        (.flq rd rs1 imm, 4#32, 4, a, rd, quad a),
        (.cFlw d r imm5, 2#32, 1, c + BitVec.ofNat 32 (4 * imm5.toNat), cfield d,
          single (c + BitVec.ofNat 32 (4 * imm5.toNat))),
        (.cFld d r imm5, 2#32, 2, c + BitVec.ofNat 32 (8 * imm5.toNat), cfield d,
          double (c + BitVec.ofNat 32 (8 * imm5.toNat))),
        (.cFlwsp rd imm6, 2#32, 1, sp + BitVec.ofNat 32 (4 * imm6.toNat), rd,
          single (sp + BitVec.ofNat 32 (4 * imm6.toNat))),
        (.cFldsp rd imm6, 2#32, 2, sp + BitVec.ofNat 32 (8 * imm6.toNat), rd,
          double (sp + BitVec.ofNat 32 (8 * imm6.toNat)))] : List (Instr × Word × Nat × Word × FReg × BitVec 128)),
      p.2.2.2.1.toNat % 4 = 0 → s.env.noTrapIn p.2.2.1 →
      ∃ t, exec p.1 s = .next t ∧ Retires s t (s.cpu.pc + p.2.1) none (some p.2.2.2.2) s.cpu.fcsr ∧
        s.env.Asked t.env ((List.range p.2.2.1).map fun k => .readWord (p.2.2.2.1 + BitVec.ofNat 32 (4 * k)))

/-- The FP stores and their compressed forms (R85, R432): one, two or four `WriteWord` requests in ascending order, which
store the raw low bits of the register and touch no other byte. That the answered writes changed nothing of the
environment's data but the bytes their rule names and the reservation is PRESUMED (log 13), unsafe: R80 lets an access have
side effects. -/
def Obligations.FpStores : Prop :=
  ∀ (s : State) (rs2 : FReg) (rs1 : XReg) (imm : BitVec 12) (d r : CReg) (imm5 : BitVec 5) (imm6 : BitVec 6),
    let a := s.cpu.readX rs1 + imm.signExtend 32
    let c := s.cpu.readX (cfield r)
    let sp := s.cpu.readX 2#5
    Memory.wf s.env.mem →
    ∀ p ∈ ([(.fsw rs2 rs1 imm, 4#32, 1, a, rs2), (.fsd rs2 rs1 imm, 4#32, 2, a, rs2), (.fsq rs2 rs1 imm, 4#32, 4, a, rs2),
        (.cFsw d r imm5, 2#32, 1, c + BitVec.ofNat 32 (4 * imm5.toNat), cfield d),
        (.cFsd d r imm5, 2#32, 2, c + BitVec.ofNat 32 (8 * imm5.toNat), cfield d),
        (.cFswsp rs2 imm6, 2#32, 1, sp + BitVec.ofNat 32 (4 * imm6.toNat), rs2),
        (.cFsdsp rs2 imm6, 2#32, 2, sp + BitVec.ofNat 32 (8 * imm6.toNat), rs2)] :
        List (Instr × Word × Nat × Word × FReg)),
      p.2.2.2.1.toNat % 4 = 0 → s.env.noTrapIn p.2.2.1 →
      ∃ t, exec p.1 s = .next t ∧ Retires s t (s.cpu.pc + p.2.1) none none s.cpu.fcsr ∧
        s.env.Stored t.env p.2.2.2.1 (4 * p.2.2.1) (s.cpu.readF p.2.2.2.2)
          ((List.range p.2.2.1).map fun k => .writeWord (p.2.2.2.1 + BitVec.ofNat 32 (4 * k))
            ((s.cpu.readF p.2.2.2.2).extractLsb' (32 * k) 32) 0b1111#4)

/-- A misaligned access of more than a byte traps with the effective address, before any request, and changes no register:
a load or LR.W with LoadAddressMisaligned, a store, SC.W or AMO with StoreAddressMisaligned (R86, R87). That the request
`Trap` changed nothing of the environment's data is PRESUMED (log 13), unsafe. -/
def Obligations.MisalignedAccessTraps : Prop :=
  ∀ (s : State) (rd rs1 rs2 : XReg) (f : FReg) (imm : BitVec 12) (aq rl : BitVec 1) (d r : CReg) (imm5 : BitVec 5)
    (imm6 : BitVec 6),
    let a := s.cpu.readX rs1 + imm.signExtend 32
    let b := s.cpu.readX rs1
    let c := fun k : Nat => s.cpu.readX (cfield r) + BitVec.ofNat 32 (k * imm5.toNat)
    let sp := fun k : Nat => s.cpu.readX 2#5 + BitVec.ofNat 32 (k * imm6.toNat)
    (∀ p ∈ ([(.lh rd rs1 imm, 2, a), (.lhu rd rs1 imm, 2, a), (.lw rd rs1 imm, 4, a), (.flw f rs1 imm, 4, a),
        (.fld f rs1 imm, 4, a), (.flq f rs1 imm, 4, a), (.lrW aq rl rd rs1, 4, b), (.cLw d r imm5, 4, c 4),
        (.cFlw d r imm5, 4, c 4), (.cFld d r imm5, 4, c 8), (.cLwsp rd imm6, 4, sp 4), (.cFlwsp f imm6, 4, sp 4),
        (.cFldsp f imm6, 4, sp 8)] : List (Instr × Nat × Word)),
      p.2.2.toNat % p.2.1 ≠ 0 →
      ∃ t, exec p.1 s = .next t ∧ Delivers s t (.core .loadAddressMisaligned p.2.2)) ∧
    ∀ p ∈ ([(.sh rs2 rs1 imm, 2, a), (.sw rs2 rs1 imm, 4, a), (.fsw f rs1 imm, 4, a), (.fsd f rs1 imm, 4, a),
        (.fsq f rs1 imm, 4, a), (.scW aq rl rd rs1 rs2, 4, b), (.amoswapW aq rl rd rs1 rs2, 4, b),
        (.amoaddW aq rl rd rs1 rs2, 4, b), (.amoxorW aq rl rd rs1 rs2, 4, b), (.amoandW aq rl rd rs1 rs2, 4, b),
        (.amoorW aq rl rd rs1 rs2, 4, b), (.amominW aq rl rd rs1 rs2, 4, b), (.amomaxW aq rl rd rs1 rs2, 4, b),
        (.amominuW aq rl rd rs1 rs2, 4, b), (.amomaxuW aq rl rd rs1 rs2, 4, b), (.cSw d r imm5, 4, c 4),
        (.cFsw d r imm5, 4, c 4), (.cFsd d r imm5, 4, c 8), (.cSwsp rs2 imm6, 4, sp 4), (.cFswsp f imm6, 4, sp 4),
        (.cFsdsp f imm6, 4, sp 8)] : List (Instr × Nat × Word)),
      p.2.2.toNat % p.2.1 ≠ 0 →
      ∃ t, exec p.1 s = .next t ∧ Delivers s t (.core .storeAddressMisaligned p.2.2)

/-- A wide FP store whose request of word `k` is answered `EnvTrap` leaves the words before it written, writes no other,
and traps with the environment's value (R88, R709). That the refused request itself stored no byte and kept the
reservation is PRESUMED (log 13), unsafe: the spec does not say what an environment did before it answered `EnvTrap`. So is
that the answered writes and `Trap` changed nothing of the environment's data beyond what their rules say. -/
def Obligations.WideStoreStopsHalfway : Prop :=
  ∀ (s : State) (rs2 : FReg) (rs1 : XReg) (imm : BitVec 12) (d r : CReg) (imm5 : BitVec 5) (imm6 : BitVec 6) (k x : Nat),
    Memory.wf s.env.mem →
    ∀ p ∈ ([(.fsd rs2 rs1 imm, 2, s.cpu.readX rs1 + imm.signExtend 32, rs2),
        (.fsq rs2 rs1 imm, 4, s.cpu.readX rs1 + imm.signExtend 32, rs2),
        (.cFsd d r imm5, 2, s.cpu.readX (cfield r) + BitVec.ofNat 32 (8 * imm5.toNat), cfield d),
        (.cFsdsp rs2 imm6, 2, s.cpu.readX 2#5 + BitVec.ofNat 32 (8 * imm6.toNat), rs2)] :
        List (Instr × Nat × Word × FReg)),
      let write := fun j : Nat => Request.writeWord (p.2.2.1 + BitVec.ofNat 32 (4 * j))
        ((s.cpu.readF p.2.2.2).extractLsb' (32 * j) 32) 0b1111#4
      k < p.2.1 → p.2.2.1.toNat % 4 = 0 → s.env.noTrapIn k → s.env.reply k = .envTrap x →
      ∃ e t, s.env.Stored e p.2.2.1 (4 * k) (s.cpu.readF p.2.2.2) ((List.range k).map write) ∧ exec p.1 s = .next t ∧
        t.cpu = s.cpu ∧ e.Asked t.env [write k, .trap (.env x)] ∧
        (t.outcome = some (.trapped (.env x)) ∨ t.outcome = some (.halted (.env x)))

/-- A word stored is the word the next load of it reads, when the environment answers with its own data (R83, R93). -/
def Obligations.LoadSeesStore : Prop :=
  ∀ (s : State) (rs2 rs1 rd base : XReg) (imm imm' : BitVec 12),
    Memory.wf s.env.mem → s.env.usualFor 2 → rd ≠ 0#5 →
    s.cpu.readX rs1 + imm.signExtend 32 = s.cpu.readX base + imm'.signExtend 32 →
    (s.cpu.readX rs1 + imm.signExtend 32).toNat % 4 = 0 →
    ∃ t u, exec (.sw rs2 rs1 imm) s = .next t ∧ exec (.lw rd base imm') t = .next u ∧
      u.cpu.readX rd = s.cpu.readX rs2 ∧ u.outcome = some .advanced

/-! ### Fences, calls and breaks -/

/-- FENCE and FENCE.I, whatever their fields, only advance the pc (R242, R363, R143). -/
def Obligations.FencesOnlyAdvance : Prop :=
  ∀ (s : State) (fm pred succ : BitVec 4) (imm : BitVec 12) (rs1 rd : XReg),
    ∀ i ∈ [Instr.fence fm pred succ rs1 rd, Instr.fenceI imm rs1 rd],
      ∃ t, exec i s = .next t ∧ Retires s t (s.cpu.pc + 4#32) none none s.cpu.fcsr ∧ s.env.Asked t.env []

/-- ECALL delivers EnvironmentCall, EBREAK and C.EBREAK deliver Breakpoint, all with info 0 and the pc at the instruction
itself (R243, R244, R634, R712). That the request `Trap` changed no byte of memory and nothing else of the environment's
data is PRESUMED (log 13), unsafe. -/
def Obligations.CallsAndBreaksTrap : Prop :=
  ∀ s : State,
    ∀ p ∈ ([(.ecall, .environmentCall), (.ebreak, .breakpoint), (.cEbreak, .breakpoint)] : List (Instr × Cause)),
      ∃ t, exec p.1 s = .next t ∧ Delivers s t (.core p.2 0#32)

/-! ### Atomics -/

/-- LR.W of an aligned address loads the word, reserves it, and changes nothing else; any aq and rl (R321, R323). That the
answered `LoadReservedWord` changed nothing of the environment's data but the reservation is PRESUMED (log 13), unsafe: R80
and R90 let a read have side effects. -/
def Obligations.LoadReservedReserves : Prop :=
  ∀ (s : State) (aq rl : BitVec 1) (rd rs1 : XReg),
    let a := s.cpu.readX rs1
    a.toNat % 4 = 0 → s.env.noTrapIn 1 →
    ∃ t, exec (.lrW aq rl rd rs1) s = .next t ∧
      Retires s t (s.cpu.pc + 4#32) (some (rd, s.env.wordAt 0 a)) none s.cpu.fcsr ∧ t.env.reservation = some a ∧
      s.env.Asked { t.env with reservation := s.env.reservation } [.loadReserved a]

/-- SC.W to the reserved word stores rs2 and writes 0; to any other, or when the environment lets it fail, it stores
nothing and writes 1; the reservation is gone either way (R324, R335, R336). R336 leaves a failure at the reserved word to
the environment: that it fails there exactly when the script says so is DESIGN CHOICE (log 14). That the answered
`StoreReservedWord` changed nothing of the environment's data but the word stored and the reservation is PRESUMED (log 13),
unsafe. -/
def Obligations.StoreConditionalDecides : Prop :=
  ∀ (s : State) (aq rl : BitVec 1) (rd rs1 rs2 : XReg),
    let a := s.cpu.readX rs1
    let v := s.cpu.readX rs2
    Memory.wf s.env.mem → a.toNat % 4 = 0 → s.env.noTrapIn 1 →
    ∃ t, exec (.scW aq rl rd rs1 rs2) s = .next t ∧ t.env.reservation = none ∧
      (s.env.reservation = some a → s.env.reply 0 ≠ .scFail →
        Retires s t (s.cpu.pc + 4#32) (some (rd, 0#32)) none s.cpu.fcsr ∧
        s.env.Stored { t.env with reservation := s.env.reservation } a 4 (v.setWidth 128) [.storeReserved a v]) ∧
      (s.env.reservation ≠ some a ∨ s.env.reply 0 = .scFail →
        Retires s t (s.cpu.pc + 4#32) (some (rd, 1#32)) none s.cpu.fcsr ∧
        s.env.Asked { t.env with reservation := s.env.reservation } [.storeReserved a v])

/-- The nine AMOs of an aligned address: one `ReadWord`, then one `WriteWord` of the new value to the same word, and the old
value in rd; any aq and rl (R321, R322, R325 to R334). That the answered read changed nothing of the environment's data, and
the answered write nothing but the word and its reservation, is PRESUMED (log 13), unsafe: R80 and R90 let a read have side
effects. -/
def Obligations.AtomicMemoryOperations : Prop :=
  ∀ (s : State) (aq rl : BitVec 1) (rd rs1 rs2 : XReg),
    let a := s.cpu.readX rs1
    let b := s.cpu.readX rs2
    let old := s.env.wordAt 0 a
    Memory.wf s.env.mem → a.toNat % 4 = 0 → s.env.noTrapIn 2 →
    ∀ p ∈ ([(.amoswapW aq rl rd rs1 rs2, b), (.amoaddW aq rl rd rs1 rs2, old + b), (.amoxorW aq rl rd rs1 rs2, old ^^^ b),
        (.amoandW aq rl rd rs1 rs2, old &&& b), (.amoorW aq rl rd rs1 rs2, old ||| b),
        (.amominW aq rl rd rs1 rs2, if old.toInt < b.toInt then old else b),
        (.amomaxW aq rl rd rs1 rs2, if b.toInt < old.toInt then old else b),
        (.amominuW aq rl rd rs1 rs2, if old.toNat < b.toNat then old else b),
        (.amomaxuW aq rl rd rs1 rs2, if b.toNat < old.toNat then old else b)] : List (Instr × Word)),
      ∃ t, exec p.1 s = .next t ∧ Retires s t (s.cpu.pc + 4#32) (some (rd, old)) none s.cpu.fcsr ∧
        s.env.Stored t.env a 4 (p.2.setWidth 128) [.readWord a, .writeWord a p.2 0b1111#4]

/-! ### Control and status registers -/

/-- The six CSR instructions on fflags, frm and fcsr: the old value, zero-extended, in rd, the new value in the bits the CSR
names, and nothing asked of the environment (R53, R352 to R362). -/
def Obligations.FpCsrAccess : Prop :=
  ∀ (s : State) (rd rs1 : XReg) (uimm : BitVec 5), s.cfg.flen ≠ .none → s.env.gates.f = true →
    let c := s.cpu.fcsr
    let a := s.cpu.readX rs1
    let u := uimm.setWidth 32
    ∀ p ∈ ([(0x001#12, c &&& 0x1F#8, fun v => c &&& 0xE0#8 ||| v.setWidth 8 &&& 0x1F#8),
        (0x002#12, c >>> 5, fun v => v.setWidth 8 <<< 5 ||| c &&& 0x1F#8), (0x003#12, c, fun v => v.setWidth 8)] :
        List (BitVec 12 × BitVec 8 × (Word → BitVec 8))),
      let old := p.2.1.setWidth 32
      ∀ q ∈ ([(.csrrw rd p.1 rs1, a), (.csrrs rd p.1 rs1, old ||| a), (.csrrc rd p.1 rs1, old &&& ~~~a),
          (.csrrwi rd p.1 uimm, u), (.csrrsi rd p.1 uimm, old ||| u), (.csrrci rd p.1 uimm, old &&& ~~~u)] :
          List (Instr × Word)),
        ∃ t, exec q.1 s = .next t ∧ Retires s t (s.cpu.pc + 4#32) (some (rd, old)) none (p.2.2 q.2) ∧
          s.env.Asked t.env []

/-- The six CSR instructions on any other CSR: the reads and writes of R351, with its access kind, the read before the
write; the word read in rd, the new value given to the environment (R350 to R352, R357 to R362). That the environment's
CSR then holds that value, and every other CSR what it held, is DESIGN CHOICE (log 6), unsafe: R350 leaves it to the
environment. That the answered requests changed nothing else, neither memory nor the reservation nor the gates, is PRESUMED
(log 13), unsafe: R350 and R806 leave their effect to the environment too. -/
def Obligations.DelegatedCsrAccess : Prop :=
  ∀ (s : State) (rd rs1 : XReg) (uimm : BitVec 5) (csr : BitVec 12), csr ∉ [0x001#12, 0x002#12, 0x003#12] →
    CsrFile.wf s.env.csrs →
    let a := s.cpu.readX rs1
    let u := uimm.setWidth 32
    let old := (s.env.reply 0).wordOr (Store.read s.env.csrs csr.toNat)
    ∀ p ∈ ([(.csrrw rd csr rs1, decide (rd ≠ 0#5), true, a), (.csrrs rd csr rs1, true, decide (rs1 ≠ 0#5), old ||| a),
        (.csrrc rd csr rs1, true, decide (rs1 ≠ 0#5), old &&& ~~~a), (.csrrwi rd csr uimm, decide (rd ≠ 0#5), true, u),
        (.csrrsi rd csr uimm, true, decide (uimm ≠ 0#5), old ||| u),
        (.csrrci rd csr uimm, true, decide (uimm ≠ 0#5), old &&& ~~~u)] : List (Instr × Bool × Bool × Word)),
      let reads := p.2.1
      let writes := p.2.2.1
      let kind := if reads && writes then AccessKind.readWrite else if reads then .readOnly else .writeOnly
      let qs := (if reads then [Request.csrRead csr kind] else []) ++
        (if writes then [Request.csrWrite csr p.2.2.2 kind] else [])
      s.env.noTrapIn qs.length →
      ∃ t, exec p.1 s = .next t ∧
        Retires s t (s.cpu.pc + 4#32) (if reads then some (rd, old) else none) none s.cpu.fcsr ∧
        (∀ n, Store.read t.env.csrs n = if writes ∧ n = csr.toNat then p.2.2.2 else Store.read s.env.csrs n) ∧
        s.env.Asked { t.env with csrs := s.env.csrs } qs

/-- Without the FPU, every CSR instruction on fflags, frm or fcsr is illegal, carries its own word, and asks nothing of the
environment (R356, R712). That the check is made at execution, after the category's charge, is DEDUCED from R356 against
R145 (log 15), and so is that the word carried is the one the instruction encodes to (log 21). That the request `Trap`
changed nothing of the environment's data is PRESUMED (log 13), unsafe. -/
def Obligations.FpCsrNeedsFpu : Prop :=
  ∀ (s : State) (rd rs1 : XReg) (uimm : BitVec 5), s.cfg.flen = .none ∨ s.env.gates.f = false →
    ∀ csr ∈ [0x001#12, 0x002#12, 0x003#12],
      ∀ i ∈ [Instr.csrrw rd csr rs1, .csrrs rd csr rs1, .csrrc rd csr rs1, .csrrwi rd csr uimm, .csrrsi rd csr uimm,
          .csrrci rd csr uimm],
        ∃ t, exec i s = .next t ∧ Delivers s t (.core .illegalInstruction i.bits)

/-! ### Floating-point instructions -/

/-- FADD, FSUB, FMUL and FDIV in the three formats: the rounded result boxed into rd, its flags ORed into FCSR, and
nothing else but the pc (R405, R406, R416 to R420). -/
def Obligations.FpBinaryOperations : Prop :=
  ∀ (s : State) (rd rs1 rs2 : FReg) (rm : Rm) (m : RoundingMode), RoundsBy s rm m →
    let a := fun fmt : Fmt => readFp s.cfg.flen s.cpu fmt rs1
    let b := fun fmt : Fmt => readFp s.cfg.flen s.cpu fmt rs2
    ∀ p ∈ ([(.faddS rd rs1 rs2 rm, boxedResult s (fadd (a .s) (b .s) m)),
        (.fsubS rd rs1 rs2 rm, boxedResult s (fsub (a .s) (b .s) m)),
        (.fmulS rd rs1 rs2 rm, boxedResult s (fmul (a .s) (b .s) m)),
        (.fdivS rd rs1 rs2 rm, boxedResult s (fdiv (a .s) (b .s) m)),
        (.faddD rd rs1 rs2 rm, boxedResult s (fadd (a .d) (b .d) m)),
        (.fsubD rd rs1 rs2 rm, boxedResult s (fsub (a .d) (b .d) m)),
        (.fmulD rd rs1 rs2 rm, boxedResult s (fmul (a .d) (b .d) m)),
        (.fdivD rd rs1 rs2 rm, boxedResult s (fdiv (a .d) (b .d) m)),
        (.faddQ rd rs1 rs2 rm, boxedResult s (fadd (a .q) (b .q) m)),
        (.fsubQ rd rs1 rs2 rm, boxedResult s (fsub (a .q) (b .q) m)),
        (.fmulQ rd rs1 rs2 rm, boxedResult s (fmul (a .q) (b .q) m)),
        (.fdivQ rd rs1 rs2 rm, boxedResult s (fdiv (a .q) (b .q) m))] : List (Instr × BitVec 128 × BitVec 5)),
      ∃ t, exec p.1 s = .next t ∧
        Retires s t (s.cpu.pc + 4#32) none (some (rd, p.2.1)) (s.cpu.fcsr ||| p.2.2.setWidth 8) ∧ s.env.Asked t.env []

/-- The twelve fused multiply-adds: the product negated for FNMSUB and FNMADD, the addend for FMSUB and FNMADD, one
rounding (R423). -/
def Obligations.FpFusedOperations : Prop :=
  ∀ (s : State) (rd rs1 rs2 rs3 : FReg) (rm : Rm) (m : RoundingMode), RoundsBy s rm m →
    let out := fun (fmt : Fmt) (negP negC : Bool) => boxedResult s (ffma negP negC (readFp s.cfg.flen s.cpu fmt rs1)
      (readFp s.cfg.flen s.cpu fmt rs2) (readFp s.cfg.flen s.cpu fmt rs3) m)
    ∀ p ∈ ([(.fmaddS rd rs1 rs2 rs3 rm, out .s false false), (.fmsubS rd rs1 rs2 rs3 rm, out .s false true),
        (.fnmsubS rd rs1 rs2 rs3 rm, out .s true false), (.fnmaddS rd rs1 rs2 rs3 rm, out .s true true),
        (.fmaddD rd rs1 rs2 rs3 rm, out .d false false), (.fmsubD rd rs1 rs2 rs3 rm, out .d false true),
        (.fnmsubD rd rs1 rs2 rs3 rm, out .d true false), (.fnmaddD rd rs1 rs2 rs3 rm, out .d true true),
        (.fmaddQ rd rs1 rs2 rs3 rm, out .q false false), (.fmsubQ rd rs1 rs2 rs3 rm, out .q false true),
        (.fnmsubQ rd rs1 rs2 rs3 rm, out .q true false), (.fnmaddQ rd rs1 rs2 rs3 rm, out .q true true)] :
        List (Instr × BitVec 128 × BitVec 5)),
      ∃ t, exec p.1 s = .next t ∧
        Retires s t (s.cpu.pc + 4#32) none (some (rd, p.2.1)) (s.cpu.fcsr ||| p.2.2.setWidth 8) ∧ s.env.Asked t.env []

/-- FSQRT after its one `SqrtMode` request: accurate gives the correctly rounded root, fast some result, within two patterns
of the accurate one for a positive finite operand, and illegal, or accurate for quad, IllegalInstruction with the
instruction's own word (R18, R421). What a fast root is beyond that bound the spec leaves open, and so does this (log 7).
That the usual mode stands for every reply that is no mode, an `EnvTrap` too, since `SqrtMode` cannot fail, is DEDUCED
from R18 against R10 (log 16), unsafe. That the requests `SqrtMode` and `Trap` changed nothing of the environment's data is
PRESUMED (log 13), unsafe. -/
def Obligations.FpSquareRoots : Prop :=
  ∀ (s : State) (rd rs1 : FReg) (rm : Rm) (m : RoundingMode) (mode : SqrtMode), RoundsBy s rm m →
    ∀ p ∈ ([(.s, .fsqrtS rd rs1 rm, s.env.sqrtModes.s), (.d, .fsqrtD rd rs1 rm, s.env.sqrtModes.d),
        (.q, .fsqrtQ rd rs1 rm, s.env.sqrtModes.q)] : List (Fmt × Instr × SqrtMode)),
      let a := readFp s.cfg.flen s.cpu p.1 rs1
      (s.env.reply 0 = .sqrt mode ∨ (∀ q, s.env.reply 0 ≠ .sqrt q) ∧ mode = p.2.2) →
      (mode = .accurate → p.1 ≠ .q → ∃ t, exec p.2.1 s = .next t ∧
        Retires s t (s.cpu.pc + 4#32) none (some (rd, (boxedResult s (fsqrt a m)).1))
          (s.cpu.fcsr ||| (fsqrt a m).2.setWidth 8) ∧ s.env.Asked t.env [.sqrtMode p.1]) ∧
      (mode = .fast → ∃ (r : FpResult p.1) (t : State), exec p.2.1 s = .next t ∧
        Retires s t (s.cpu.pc + 4#32) none (some (rd, (boxedResult s r).1)) (s.cpu.fcsr ||| r.2.setWidth 8) ∧
        s.env.Asked t.env [.sqrtMode p.1] ∧
        ∀ v, finiteValue a = some v → 0 < v → ∃ k ≤ 4, r.1 + 2#p.1.width = (fsqrt a m).1 + BitVec.ofNat p.1.width k) ∧
      (mode = .illegal ∨ mode = .accurate ∧ p.1 = .q → ∃ e t, s.env.Asked e [.sqrtMode p.1] ∧ exec p.2.1 s = .next t ∧
        Delivers { s with env := e } t (.core .illegalInstruction p.2.1.bits))

/-- The instructions that round nothing: sign injection, minimum and maximum, in the three formats (R416, R422, R427). -/
def Obligations.FpSignsAndExtremes : Prop :=
  ∀ (s : State) (rd rs1 rs2 : FReg),
    let out := fun (fmt : Fmt) (op : BitVec fmt.width → BitVec fmt.width → FpResult fmt) =>
      boxedResult s (op (readFp s.cfg.flen s.cpu fmt rs1) (readFp s.cfg.flen s.cpu fmt rs2))
    ∀ p ∈ ([(.fsgnjS rd rs1 rs2, out .s fun a b => (fsgnj a b, noFlags)),
        (.fsgnjnS rd rs1 rs2, out .s fun a b => (fsgnjn a b, noFlags)),
        (.fsgnjxS rd rs1 rs2, out .s fun a b => (fsgnjx a b, noFlags)), (.fminS rd rs1 rs2, out .s fmin),
        (.fmaxS rd rs1 rs2, out .s fmax), (.fsgnjD rd rs1 rs2, out .d fun a b => (fsgnj a b, noFlags)),
        (.fsgnjnD rd rs1 rs2, out .d fun a b => (fsgnjn a b, noFlags)),
        (.fsgnjxD rd rs1 rs2, out .d fun a b => (fsgnjx a b, noFlags)), (.fminD rd rs1 rs2, out .d fmin),
        (.fmaxD rd rs1 rs2, out .d fmax), (.fsgnjQ rd rs1 rs2, out .q fun a b => (fsgnj a b, noFlags)),
        (.fsgnjnQ rd rs1 rs2, out .q fun a b => (fsgnjn a b, noFlags)),
        (.fsgnjxQ rd rs1 rs2, out .q fun a b => (fsgnjx a b, noFlags)), (.fminQ rd rs1 rs2, out .q fmin),
        (.fmaxQ rd rs1 rs2, out .q fmax)] : List (Instr × BitVec 128 × BitVec 5)),
      ∃ t, exec p.1 s = .next t ∧
        Retires s t (s.cpu.pc + 4#32) none (some (rd, p.2.1)) (s.cpu.fcsr ||| p.2.2.setWidth 8) ∧ s.env.Asked t.env []

/-- The comparisons and FCLASS in the three formats: 0 or 1, or the class, in the integer register rd (R424 to R426). -/
def Obligations.FpComparesAndClasses : Prop :=
  ∀ (s : State) (rd : XReg) (rs1 rs2 : FReg),
    let a := fun fmt : Fmt => readFp s.cfg.flen s.cpu fmt rs1
    let b := fun fmt : Fmt => readFp s.cfg.flen s.cpu fmt rs2
    let truth := fun r : Bool × BitVec 5 => ((if r.1 then 1#32 else 0#32 : Word), r.2)
    ∀ p ∈ ([(.feqS rd rs1 rs2, truth (feq (a .s) (b .s))), (.fltS rd rs1 rs2, truth (flt (a .s) (b .s))),
        (.fleS rd rs1 rs2, truth (fle (a .s) (b .s))), (.fclassS rd rs1, fclass (a .s), noFlags),
        (.feqD rd rs1 rs2, truth (feq (a .d) (b .d))), (.fltD rd rs1 rs2, truth (flt (a .d) (b .d))),
        (.fleD rd rs1 rs2, truth (fle (a .d) (b .d))), (.fclassD rd rs1, fclass (a .d), noFlags),
        (.feqQ rd rs1 rs2, truth (feq (a .q) (b .q))), (.fltQ rd rs1 rs2, truth (flt (a .q) (b .q))),
        (.fleQ rd rs1 rs2, truth (fle (a .q) (b .q))), (.fclassQ rd rs1, fclass (a .q), noFlags)] :
        List (Instr × Word × BitVec 5)),
      ∃ t, exec p.1 s = .next t ∧
        Retires s t (s.cpu.pc + 4#32) (some (rd, p.2.1)) none (s.cpu.fcsr ||| p.2.2.setWidth 8) ∧ s.env.Asked t.env []

/-- The conversions to an integer register, in the three formats (R429). -/
def Obligations.FpToIntegerConversions : Prop :=
  ∀ (s : State) (rd : XReg) (rs1 : FReg) (rm : Rm) (m : RoundingMode), RoundsBy s rm m →
    let a := fun fmt : Fmt => readFp s.cfg.flen s.cpu fmt rs1
    ∀ p ∈ ([(.fcvtWS rd rs1 rm, fcvtW (a .s) m), (.fcvtWuS rd rs1 rm, fcvtWu (a .s) m),
        (.fcvtWD rd rs1 rm, fcvtW (a .d) m), (.fcvtWuD rd rs1 rm, fcvtWu (a .d) m),
        (.fcvtWQ rd rs1 rm, fcvtW (a .q) m), (.fcvtWuQ rd rs1 rm, fcvtWu (a .q) m)] : List (Instr × Word × BitVec 5)),
      ∃ t, exec p.1 s = .next t ∧
        Retires s t (s.cpu.pc + 4#32) (some (rd, p.2.1)) none (s.cpu.fcsr ||| p.2.2.setWidth 8) ∧ s.env.Asked t.env []

/-- The conversions from an integer register and between formats: the result boxed, its flags ORed (R430, R431). -/
def Obligations.FpConversions : Prop :=
  ∀ (s : State) (rd rs : FReg) (rs1 : XReg) (rm : Rm) (m : RoundingMode), RoundsBy s rm m →
    let v := s.cpu.readX rs1
    let a := fun fmt : Fmt => readFp s.cfg.flen s.cpu fmt rs
    ∀ p ∈ ([(.fcvtSW rd rs1 rm, boxedResult s (fcvtOfW .s v m)), (.fcvtSWu rd rs1 rm, boxedResult s (fcvtOfWu .s v m)),
        (.fcvtDW rd rs1 rm, boxedResult s (fcvtOfW .d v m)), (.fcvtDWu rd rs1 rm, boxedResult s (fcvtOfWu .d v m)),
        (.fcvtQW rd rs1 rm, boxedResult s (fcvtOfW .q v m)), (.fcvtQWu rd rs1 rm, boxedResult s (fcvtOfWu .q v m)),
        (.fcvtSD rd rs rm, boxedResult s (fcvtFmt .d .s (a .d) m)),
        (.fcvtDS rd rs rm, boxedResult s (fcvtFmt .s .d (a .s) m)),
        (.fcvtSQ rd rs rm, boxedResult s (fcvtFmt .q .s (a .q) m)),
        (.fcvtQS rd rs rm, boxedResult s (fcvtFmt .s .q (a .s) m)),
        (.fcvtDQ rd rs rm, boxedResult s (fcvtFmt .q .d (a .q) m)),
        (.fcvtQD rd rs rm, boxedResult s (fcvtFmt .d .q (a .d) m))] : List (Instr × BitVec 128 × BitVec 5)),
      ∃ t, exec p.1 s = .next t ∧
        Retires s t (s.cpu.pc + 4#32) none (some (rd, p.2.1)) (s.cpu.fcsr ||| p.2.2.setWidth 8) ∧ s.env.Asked t.env []

/-- FMV.X.W moves the raw low 32 bits, FMV.W.X boxes the integer register, neither sets a flag, and the one after the other
gives the integer back (R433). -/
def Obligations.FpMovesKeepBits : Prop :=
  (∀ (s : State) (rd : XReg) (rs1 : FReg), ∃ t, exec (.fmvXW rd rs1) s = .next t ∧
    Retires s t (s.cpu.pc + 4#32) (some (rd, (s.cpu.readF rs1).extractLsb' 0 32)) none s.cpu.fcsr ∧
    s.env.Asked t.env []) ∧
  (∀ (s : State) (rd : FReg) (rs1 : XReg), ∃ t, exec (.fmvWX rd rs1) s = .next t ∧
    Retires s t (s.cpu.pc + 4#32) none (some (rd, (boxedResult s (fmt := .s) (s.cpu.readX rs1, noFlags)).1))
      s.cpu.fcsr ∧ s.env.Asked t.env []) ∧
  ∀ (s : State) (f : FReg) (rd rs1 : XReg), s.cfg.flen ≠ .none → rd ≠ 0#5 →
    ∃ t u, exec (.fmvWX f rs1) s = .next t ∧ exec (.fmvXW rd f) t = .next u ∧ u.cpu.readX rd = s.cpu.readX rs1

/-- An instruction whose rm is 111 is illegal when frm is 101, 110 or 111: it carries its own word, asks nothing of the
environment, FSQRT no `SqrtMode` either, and changes no register (R407, R434, R714). That the request `Trap` changed nothing
of the environment's data is PRESUMED (log 13), unsafe. -/
def Obligations.InvalidDynamicModeTraps : Prop :=
  ∀ (s : State) (rd rs1 rs2 rs3 : FReg) (xd xs : XReg), 5 ≤ (s.cpu.fcsr.extractLsb' 5 3).toNat →
    ∀ i ∈ [Instr.fmaddS rd rs1 rs2 rs3 .dyn, .fmsubS rd rs1 rs2 rs3 .dyn, .fnmsubS rd rs1 rs2 rs3 .dyn,
        .fnmaddS rd rs1 rs2 rs3 .dyn, .faddS rd rs1 rs2 .dyn, .fsubS rd rs1 rs2 .dyn, .fmulS rd rs1 rs2 .dyn,
        .fdivS rd rs1 rs2 .dyn, .fsqrtS rd rs1 .dyn, .fcvtWS xd rs1 .dyn, .fcvtWuS xd rs1 .dyn, .fcvtSW rd xs .dyn,
        .fcvtSWu rd xs .dyn, .fmaddD rd rs1 rs2 rs3 .dyn, .fmsubD rd rs1 rs2 rs3 .dyn, .fnmsubD rd rs1 rs2 rs3 .dyn,
        .fnmaddD rd rs1 rs2 rs3 .dyn, .faddD rd rs1 rs2 .dyn, .fsubD rd rs1 rs2 .dyn, .fmulD rd rs1 rs2 .dyn,
        .fdivD rd rs1 rs2 .dyn, .fsqrtD rd rs1 .dyn, .fcvtWD xd rs1 .dyn, .fcvtWuD xd rs1 .dyn, .fcvtDW rd xs .dyn,
        .fcvtDWu rd xs .dyn, .fmaddQ rd rs1 rs2 rs3 .dyn, .fmsubQ rd rs1 rs2 rs3 .dyn, .fnmsubQ rd rs1 rs2 rs3 .dyn,
        .fnmaddQ rd rs1 rs2 rs3 .dyn, .faddQ rd rs1 rs2 .dyn, .fsubQ rd rs1 rs2 .dyn, .fmulQ rd rs1 rs2 .dyn,
        .fdivQ rd rs1 rs2 .dyn, .fsqrtQ rd rs1 .dyn, .fcvtWQ xd rs1 .dyn, .fcvtWuQ xd rs1 .dyn, .fcvtQW rd xs .dyn,
        .fcvtQWu rd xs .dyn, .fcvtSD rd rs1 .dyn, .fcvtDS rd rs1 .dyn, .fcvtSQ rd rs1 .dyn, .fcvtQS rd rs1 .dyn,
        .fcvtDQ rd rs1 .dyn, .fcvtQD rd rs1 .dyn],
      ∃ t, exec i s = .next t ∧ Delivers s t (.core .illegalInstruction i.bits)

/-! ### Floating-point numerics -/

/-- NaN boxing: a boxed value has ones from bit w to FLEN - 1; what is boxed is read back; a register that is not boxed reads
as the canonical NaN, whose bits are those of R404 (R404 to R406). -/
def Obligations.NanBoxing : Prop :=
  ∀ (flen : Flen) (fmt : Fmt) (p : BitVec 128) (v : BitVec fmt.width), fmt.width ≤ flen.bits →
    (∀ i, (boxed flen fmt v).getLsbD i =
      if i < fmt.width then v.getLsbD i else decide (i < flen.bits)) ∧
    unboxed flen fmt (boxed flen fmt v) = v ∧
    ((∀ i, fmt.width ≤ i → i < flen.bits → p.getLsbD i = true) → unboxed flen fmt p = p.setWidth fmt.width) ∧
    ((∃ i, fmt.width ≤ i ∧ i < flen.bits ∧ p.getLsbD i = false) → unboxed flen fmt p = canonicalNaN fmt) ∧
    ∀ i, (canonicalNaN fmt).getLsbD i = decide (fmt.fracBits - 1 ≤ i ∧ i < fmt.width - 1)

/-- The special operands of the arithmetic operations, accurate FSQRT, the fused operations and the conversions between
formats. A NaN result is the canonical NaN, and NV comes only with it; it comes from a signaling NaN, from infinities that
a sum would cancel, from zero times infinity, 0/0, ∞/∞ and the root of a number below zero, and from nothing else a clause
gives; the other sums, products, quotients and roots with an infinity or a zero are an infinity or a zero of the sign of
the rule, with no flag; DZ comes only from the division of a finite nonzero number by a zero (R413 to R415, R417 to R421,
R423, R431). -/
def Obligations.FpExceptionalResults : Prop :=
  ∀ (fmt src : Fmt) (a b c : BitVec fmt.width) (z : BitVec src.width) (rm : RoundingMode) (negP negC : Bool),
    let x := unpack a
    let y := unpack b
    let nan := fun invalid : Bool => ((canonicalNaN fmt, if invalid then flagNV else noFlags) : FpResult fmt)
    let inf := fun neg : Bool => ((infOf fmt neg, noFlags) : FpResult fmt)
    let zero := fun neg : Bool => ((zeroOf fmt neg, noFlags) : FpResult fmt)
    let sign := signOf a ^^ signOf b
    (∀ r ∈ [fadd a b rm, fsub a b rm, fmul a b rm, fdiv a b rm, fsqrt a rm, ffma negP negC a b c rm, fcvtFmt src fmt z rm],
      ((unpack r.1).isNaN = true → r.1 = canonicalNaN fmt) ∧
      (r.2 &&& flagNV ≠ 0#5 → r = (canonicalNaN fmt, flagNV))) ∧
    (∀ r ∈ [fadd a b rm, fsub a b rm, fmul a b rm, fsqrt a rm, ffma negP negC a b c rm, fcvtFmt src fmt z rm],
      r.2 &&& flagDZ = 0#5) ∧
    ((fdiv a b rm).2 &&& flagDZ ≠ 0#5 ↔ (∃ v : ℚ, finiteValue a = some v ∧ v ≠ 0) ∧ finiteValue b = some 0) ∧
    ((fdiv a b rm).2 &&& flagDZ ≠ 0#5 → fdiv a b rm = (infOf fmt sign, flagDZ)) ∧
    -- NaN operands
    (x.isNaN = true ∨ y.isNaN = true →
      ∀ r ∈ [fadd a b rm, fsub a b rm, fmul a b rm, fdiv a b rm], r = nan (x.isSNaN || y.isSNaN)) ∧
    (x.isNaN = true → fsqrt a rm = nan x.isSNaN) ∧
    ((unpack z).isNaN = true → fcvtFmt src fmt z rm = nan (unpack z).isSNaN) ∧
    -- infinite operands
    (x.isInf = true → y.isInf = true →
      fadd a b rm = (if signOf a = signOf b then (a, noFlags) else nan true) ∧
      fsub a b rm = (if signOf a = signOf b then nan true else (a, noFlags)) ∧
      fmul a b rm = inf sign ∧ fdiv a b rm = nan true) ∧
    (∀ v : ℚ, x.isInf = true → finiteValue b = some v →
      fadd a b rm = (a, noFlags) ∧ fsub a b rm = (a, noFlags) ∧
      fmul a b rm = (if v = 0 then nan true else inf sign) ∧ fdiv a b rm = inf sign) ∧
    (∀ v : ℚ, finiteValue a = some v → y.isInf = true →
      fadd a b rm = (b, noFlags) ∧ fsub a b rm = inf (!signOf b) ∧
      fmul a b rm = (if v = 0 then nan true else inf sign) ∧ fdiv a b rm = zero sign) ∧
    -- quotients of zeros, and roots
    (finiteValue a = some 0 → finiteValue b = some 0 → fdiv a b rm = nan true) ∧
    (∀ v : ℚ, finiteValue a = some 0 → finiteValue b = some v → v ≠ 0 → fdiv a b rm = zero sign) ∧
    (finiteValue a = some 0 → fsqrt a rm = (a, noFlags)) ∧
    (∀ v : ℚ, finiteValue a = some v → v < 0 → fsqrt a rm = nan true) ∧
    (x.isInf = true → fsqrt a rm = (if signOf a then nan true else (a, noFlags))) ∧
    -- the fused operations
    let signP := sign ^^ negP
    let signC := signOf c ^^ negC
    (x.isInf = true ∧ finiteValue b = some 0 ∨ finiteValue a = some 0 ∧ y.isInf = true →
      ffma negP negC a b c rm = nan true) ∧
    (¬ (x.isInf = true ∧ finiteValue b = some 0) → ¬ (finiteValue a = some 0 ∧ y.isInf = true) →
      x.isNaN = true ∨ y.isNaN = true ∨ (unpack c).isNaN = true →
      ffma negP negC a b c rm = nan (x.isSNaN || y.isSNaN || (unpack c).isSNaN)) ∧
    (x.isNaN = false → y.isNaN = false → x.isInf = true ∨ y.isInf = true →
      finiteValue a ≠ some 0 → finiteValue b ≠ some 0 →
      ((unpack c).isInf = true → ffma negP negC a b c rm = (if signP = signC then inf signP else nan true)) ∧
      ∀ v : ℚ, finiteValue c = some v → ffma negP negC a b c rm = inf signP) ∧
    ∀ v w : ℚ, finiteValue a = some v → finiteValue b = some w → (unpack c).isInf = true →
      ffma negP negC a b c rm = inf signC

/-- `RoundInt` is the nearest integer by the mode, and inexact exactly when it differs; a conversion saturates with NV
where the rounded value does not fit, and otherwise gives it, with NX when inexact; NaN and the infinities saturate
(R428, R429). -/
def Obligations.IntegerRounding : Prop :=
  (∀ (rm : RoundingMode) (neg : Bool) (m : Nat) (e : Int),
    let x : ℚ := (if neg then -1 else 1) * (m : ℚ) * 2 ^ e
    let r : ℚ := ((roundInt rm neg m e).1 : ℚ)
    ((roundInt rm neg m e).2 = true ↔ r ≠ x) ∧
      match rm with
      | .rne => |r - x| ≤ 1 / 2 ∧ (|r - x| = 1 / 2 → 2 ∣ (roundInt rm neg m e).1)
      | .rmm => |r - x| ≤ 1 / 2 ∧ (|r - x| = 1 / 2 → |x| < |r|)
      | .rtz => |r| ≤ |x| ∧ |x| < |r| + 1 ∧ 0 ≤ r * x
      | .rdn => r ≤ x ∧ x < r + 1
      | .rup => x ≤ r ∧ r < x + 1) ∧
  ∀ (fmt : Fmt) (a : BitVec fmt.width) (rm : RoundingMode),
    match unpack a with
    | .nan _ => fcvtW a rm = (0x7FFFFFFF#32, flagNV) ∧ fcvtWu a rm = (0xFFFFFFFF#32, flagNV)
    | .inf neg =>
      fcvtW a rm = (if neg then 0x80000000#32 else 0x7FFFFFFF#32, flagNV) ∧
        fcvtWu a rm = (if neg then 0#32 else 0xFFFFFFFF#32, flagNV)
    | .fin neg m e =>
      let r := roundInt rm neg m e
      let exact := if r.2 then flagNX else noFlags
      fcvtW a rm = (if 2 ^ 31 ≤ r.1 then (0x7FFFFFFF#32, flagNV) else if r.1 < -2 ^ 31 then (0x80000000#32, flagNV)
        else (BitVec.ofInt 32 r.1, exact)) ∧
      fcvtWu a rm = (if 2 ^ 32 ≤ r.1 then (0xFFFFFFFF#32, flagNV) else if r.1 < 0 then (0#32, flagNV)
        else (BitVec.ofInt 32 r.1, exact))

/-- The comparisons order numbers and infinities by value, -0 equal to +0, and a NaN compares false, with NV from FLT and
FLE always and from FEQ for a signaling one; FMIN and FMAX give one of two numbers, the lesser or the greater, -0 below
+0, the other operand beside one NaN, and the canonical NaN for two, NV for a signaling one (R422, R424, R425). -/
def Obligations.FpOrder : Prop :=
  ∀ (fmt : Fmt) (a b : BitVec fmt.width),
    let invalid := if (unpack a).isSNaN || (unpack b).isSNaN then flagNV else noFlags
    (∀ x y, orderValue a = some x → orderValue b = some y →
      feq a b = (decide (x = y), noFlags) ∧ flt a b = (decide (x < y), noFlags) ∧ fle a b = (decide (x ≤ y), noFlags) ∧
      (x < y → fmin a b = (a, noFlags) ∧ fmax a b = (b, noFlags)) ∧
      (y < x → fmin a b = (b, noFlags) ∧ fmax a b = (a, noFlags)) ∧
      (x = y → signOf a = true → fmin a b = (a, noFlags) ∧ fmax a b = (b, noFlags)) ∧
      (x = y → signOf b = true → fmin a b = (b, noFlags) ∧ fmax a b = (a, noFlags)) ∧
      (x = y → signOf a = false → signOf b = false → a = b ∧ fmin a b = (a, noFlags) ∧ fmax a b = (a, noFlags))) ∧
    (orderValue a = none ∨ orderValue b = none →
      feq a b = (false, invalid) ∧ flt a b = (false, flagNV) ∧ fle a b = (false, flagNV)) ∧
    (orderValue a = none → orderValue b = none → fmin a b = (canonicalNaN fmt, invalid) ∧
      fmax a b = (canonicalNaN fmt, invalid)) ∧
    (∀ y, orderValue a = none → orderValue b = some y → fmin a b = (b, invalid) ∧ fmax a b = (b, invalid)) ∧
    ∀ x, orderValue a = some x → orderValue b = none → fmin a b = (a, invalid) ∧ fmax a b = (a, invalid)

/-- FCLASS sets exactly the one bit of the operand's class; sign injection replaces the sign bit and keeps every other
(R403, R426, R427). -/
def Obligations.ClassesAndSigns : Prop :=
  (∀ (fmt : Fmt) (a : BitVec fmt.width),
    let s := a.getLsbD (fmt.width - 1)
    let E := (a.extractLsb' fmt.fracBits fmt.expBits).toNat
    let T := (a.extractLsb' 0 fmt.fracBits).toNat
    let top := 2 ^ fmt.expBits - 1
    fclass a =
      if E = top then
        if T = 0 then (if s then 0x001#32 else 0x080#32)
        else if a.getLsbD (fmt.fracBits - 1) then 0x200#32 else 0x100#32
      else if E = 0 then
        if T = 0 then (if s then 0x008#32 else 0x010#32) else (if s then 0x004#32 else 0x020#32)
      else (if s then 0x002#32 else 0x040#32)) ∧
  ∀ (fmt : Fmt) (a b : BitVec fmt.width) (i : Nat), i < fmt.width →
    let top := fmt.width - 1
    (fsgnj a b).getLsbD i = (if i = top then b.getLsbD top else a.getLsbD i) ∧
    (fsgnjn a b).getLsbD i = (if i = top then !b.getLsbD top else a.getLsbD i) ∧
    (fsgnjx a b).getLsbD i = (if i = top then a.getLsbD top ^^ b.getLsbD top else a.getLsbD i)

/-- Sums, differences, products and fused sums of finite operands are the exact value rounded once; an exact zero sum,
difference or fused sum has the sign of R412 and no flag, and so has a zero product (R408 to R412, R417 to R419, R423). -/
def Obligations.SumsAndProductsRound : Prop :=
  ∀ (fmt : Fmt) (rm : RoundingMode) (a b c : BitVec fmt.width) (x y z : ℚ),
    finiteValue a = some x → finiteValue b = some y → finiteValue c = some z →
    (x + y ≠ 0 → CorrectlyRounded fmt rm ((x + y : ℚ) : ℝ) (fadd a b rm)) ∧
    (x + y = 0 → fadd a b rm =
      (zeroOf fmt (if signOf a = signOf b then signOf a else decide (rm = .rdn)), noFlags)) ∧
    (x - y ≠ 0 → CorrectlyRounded fmt rm ((x - y : ℚ) : ℝ) (fsub a b rm)) ∧
    (x - y = 0 → fsub a b rm =
      (zeroOf fmt (if signOf a = signOf b then decide (rm = .rdn) else signOf a), noFlags)) ∧
    (x * y ≠ 0 → CorrectlyRounded fmt rm ((x * y : ℚ) : ℝ) (fmul a b rm)) ∧
    (x * y = 0 → fmul a b rm = (zeroOf fmt (signOf a ^^ signOf b), noFlags)) ∧
    ∀ negP negC : Bool,
      let p := (if negP then -1 else 1) * (x * y)
      let q := (if negC then -1 else 1) * z
      let signP := signOf a ^^ signOf b ^^ negP
      let signC := signOf c ^^ negC
      (p + q ≠ 0 → CorrectlyRounded fmt rm ((p + q : ℚ) : ℝ) (ffma negP negC a b c rm)) ∧
      (p + q = 0 → ffma negP negC a b c rm =
        (zeroOf fmt (if signP = signC then signP else decide (rm = .rdn)), noFlags))

/-- Quotients of finite nonzero operands and accurate roots of finite positive ones are the exact value rounded once
(R408 to R411, R420, R421). Zeros, infinities and NaNs are FpExceptionalResults'. -/
def Obligations.QuotientsAndRootsRound : Prop :=
  ∀ (fmt : Fmt) (rm : RoundingMode) (a b : BitVec fmt.width) (x y : ℚ), finiteValue a = some x → finiteValue b = some y →
    (x ≠ 0 → y ≠ 0 → CorrectlyRounded fmt rm ((x / y : ℚ) : ℝ) (fdiv a b rm)) ∧
    (0 < x → CorrectlyRounded fmt rm (Real.sqrt (x : ℝ)) (fsqrt a rm))

/-- A conversion from an integer is its value rounded once, exact for double and quad; a conversion between formats is the
value rounded once, exact to a wider one; zeros, infinities and NaNs keep their class (R430, R431). -/
def Obligations.ConversionsRound : Prop :=
  (∀ (fmt : Fmt) (rm : RoundingMode) (v : Word),
    (v ≠ 0#32 → CorrectlyRounded fmt rm (v.toInt : ℝ) (fcvtOfW fmt v rm) ∧
      CorrectlyRounded fmt rm (v.toNat : ℝ) (fcvtOfWu fmt v rm)) ∧
    (v = 0#32 → fcvtOfW fmt v rm = (0#fmt.width, noFlags) ∧ fcvtOfWu fmt v rm = (0#fmt.width, noFlags)) ∧
    (fmt ≠ .s → finiteValue (fcvtOfW fmt v rm).1 = some (v.toInt : ℚ) ∧ (fcvtOfW fmt v rm).2 = noFlags ∧
      finiteValue (fcvtOfWu fmt v rm).1 = some (v.toNat : ℚ) ∧ (fcvtOfWu fmt v rm).2 = noFlags)) ∧
  ∀ (src dst : Fmt) (rm : RoundingMode) (a : BitVec src.width),
    (∀ x : ℚ, finiteValue a = some x → x ≠ 0 → CorrectlyRounded dst rm (x : ℝ) (fcvtFmt src dst a rm)) ∧
    (∀ x : ℚ, finiteValue a = some x → src.width ≤ dst.width →
      finiteValue (fcvtFmt src dst a rm).1 = some x ∧ (fcvtFmt src dst a rm).2 = noFlags) ∧
    (finiteValue a = some 0 → fcvtFmt src dst a rm = (zeroOf dst (signOf a), noFlags)) ∧
    (∀ neg, unpack a = .inf neg → fcvtFmt src dst a rm = (infOf dst neg, noFlags)) ∧
    ∀ signaling, unpack a = .nan signaling →
      fcvtFmt src dst a rm = (canonicalNaN dst, if signaling then flagNV else noFlags)

/-! ### The step -/

/-- A step always has a next state, and its outcome is one of the three (R700). -/
def Obligations.StepHasOneOutcome : Prop :=
  ∀ s : State, ∃ t, step s = .next t ∧
    (t.outcome = some .advanced ∨ ∃ tr, t.outcome = some (.trapped tr) ∨ t.outcome = some (.halted tr))

/-- A step that traps changes no x register, no f register, not FCSR and not the pc, and calls `Trap` once, as its last
request, with the trap of its outcome; a step that retires never calls it (R709, R710). -/
def Obligations.TrapLeavesTheCore : Prop :=
  ∀ s t : State, step s = .next t →
    (∀ tr, t.outcome = some (.trapped tr) ∨ t.outcome = some (.halted tr) →
      t.cpu = (embedderTurn s).cpu ∧
        ∃ l, t.env.requests = l ++ [.trap tr] ∧ ∀ q ∈ l, ∀ tr', q ≠ .trap tr') ∧
    (t.outcome = some .advanced → ∀ q ∈ t.env.requests, ∀ tr, q ≠ .trap tr)

/-- `Charge(Fetch)` is the first request of every step, and an `EnvTrap` answer to it ends the step before the pc is
examined; a second charge is made only for an instruction that reaches execution, and every retired one makes it
(R702, R706, R808). That an instruction's category is never `Fetch` itself, so that no second charge is `Charge(Fetch)`, is
DESIGN CHOICE (log 8): R17 and D28 leave `CostCategory` open. -/
def Obligations.ChargesOfAStep : Prop :=
  ∀ s t : State, step s = .next t →
    (∃ l, t.env.requests = .charge .fetch :: l ∧ (∀ q ∈ l, q ≠ .charge .fetch) ∧
      (l.filter fun q => match q with
        | .charge _ => true
        | _ => false).length ≤ 1 ∧
      (t.outcome = some .advanced → ∃ i, Request.charge (.instr (Config.costCategory i)) ∈ l)) ∧
    ∀ n, (beginStep s).env.reply 0 = .envTrap n → t.env.requests = [.charge .fetch, .trap (.env n)] ∧
      t.cpu = (embedderTurn s).cpu

/-- When the bytes at the pc encode a well-formed instruction that is enabled, and its category's charge is not answered
`EnvTrap`, the step is the execution of that instruction, in the state the charge and the fetch leave: their requests
logged, their answers used up (R701, R704 to R707). That these charges and fetches changed nothing of memory, of the
reservation, of the CSRs or else of the environment's data is PRESUMED (log 13), unsafe: R80 and R90 let a fetch have side
effects. -/
def Obligations.StepRunsDecoded : Prop :=
  ∀ (s : State) (i : Instr),
    let b := beginStep s
    i.wf = true → i.enabled b.cfg b.env.gates = true → Fetches b (encode i) →
    (∀ n, b.env.reply (i.len / 2 + 1) ≠ .envTrap n) →
    step s = exec i { b with env := { b.env with
      replies := b.env.replies.drop (i.len / 2 + 2)
      requests := fetchRequests b.cpu.pc i.len ++ [.charge (.instr (Config.costCategory i))] } }

/-- The same where the category's charge is answered `EnvTrap`: the step traps with the environment's value before the
instruction executes (R706, R714). That the refused charge, and the answered fetches, first charge and `Trap` beside it,
changed nothing of the environment's data is PRESUMED (log 13), unsafe: R80 and R90 let a fetch have side effects. -/
def Obligations.BudgetTrapsBeforeExecution : Prop :=
  ∀ (s : State) (i : Instr) (n : Nat),
    let b := beginStep s
    i.wf = true → i.enabled b.cfg b.env.gates = true → Fetches b (encode i) →
    b.env.reply (i.len / 2 + 1) = .envTrap n →
    ∃ t, step s = .next t ∧ t.cpu = b.cpu ∧
      b.env.Asked t.env (fetchRequests b.cpu.pc i.len ++ [.charge (.instr (Config.costCategory i)), .trap (.env n)]) ∧
      (t.outcome = some (.trapped (.env n)) ∨ t.outcome = some (.halted (.env n)))

/-- A pc with bit 0 set, or bit 1 set while C is not enabled, traps with InstructionAddressMisaligned and the pc, before any
fetch (R703). That the charge and `Trap` changed nothing of the environment's data is PRESUMED (log 13), unsafe. -/
def Obligations.MisalignedFetchTraps : Prop :=
  ∀ s : State,
    let b := beginStep s
    (b.cpu.pc.getLsbD 0 = true ∨
      b.cpu.pc.getLsbD 1 = true ∧ (b.cfg.cImplemented = false ∨ b.env.gates.c = false)) →
    b.env.noTrapIn 1 →
    ∃ t e, step s = .next t ∧ b.env.Asked e [.charge .fetch] ∧
      Delivers { b with env := e } t (.core .instructionAddressMisaligned b.cpu.pc)

/-- Fetched bits that do not decode, or are not enabled, trap with IllegalInstruction and the bits, a parcel's
zero-extended, without the charge of a category (R705, R712). That the fetches, the charge and `Trap` changed nothing of
memory, of the reservation, of the CSRs or else of the environment's data is PRESUMED (log 13), unsafe: R80 and R90 let a
fetch have side effects. -/
def Obligations.IllegalEncodingTraps : Prop :=
  ∀ (s : State) (c : Encoded) (r : Reject),
    let b := beginStep s
    (c.len = 4 ↔ c.bits.extractLsb' 0 2 = 0b11#2) → Fetches b c.bytes →
    decodeStep b.cfg b.env.gates c.bits c.len = .error r →
    ∃ t e, step s = .next t ∧ b.env.Asked e (fetchRequests b.cpu.pc c.len) ∧
      Delivers { b with env := e } t (.core .illegalInstruction c.bits)

/-- An `EnvTrap` answer ends the step with its trap, and only such an answer does (R10, R20, R709, R710, R713). In any step:
an outcome with `Env(n)` has a request of the step that was answered `EnvTrap(n)`, and a request that can fail and was
answered `EnvTrap(n)` is followed by `Trap` with that value and by nothing else, no register changed. Of the requests one
by one: the fetch of either parcel; and each request of the loads, the stores, LR.W, SC.W, the AMOs and the delegated CSR
accesses, in the order of their rules. That `SqrtMode` is no request that can fail is DEDUCED from R18 against R10 (log 16),
unsafe; that the first parcel is the one memory held before `Charge(Fetch)` is PRESUMED (log 13), unsafe. -/
def Obligations.EnvTrapsAreForwarded : Prop :=
  (∀ s t : State, step s = .next t →
    (∀ n, t.outcome = some (.trapped (.env n)) ∨ t.outcome = some (.halted (.env n)) →
      ∃ k q, t.env.requests[k]? = some q ∧ q.canFail = true ∧ (beginStep s).env.reply k = .envTrap n) ∧
    ∀ k q n, t.env.requests[k]? = some q → q.canFail = true → (beginStep s).env.reply k = .envTrap n →
      StoppedBy (beginStep s) t (t.env.requests.take (k + 1)) n) ∧
  (∀ (s : State) (n : Nat),
    let b := beginStep s
    let pc := b.cpu.pc
    let w := b.env.wordAt 1 (wordAddr pc)
    let parcel := if pc.getLsbD 1 then w.extractLsb' 16 16 else w.extractLsb' 0 16
    pc.getLsbD 0 = false → (pc.getLsbD 1 = true → b.cfg.cImplemented = true ∧ b.env.gates.c = true) →
    (b.env.noTrapIn 1 → b.env.reply 1 = .envTrap n →
      ∃ t, step s = .next t ∧ StoppedBy b t [.charge .fetch, .readWord (wordAddr pc)] n) ∧
    (b.env.noTrapIn 2 → b.env.reply 2 = .envTrap n → parcel.extractLsb' 0 2 = 0b11#2 →
      ∃ t, step s = .next t ∧
        StoppedBy b t [.charge .fetch, .readWord (wordAddr pc), .readWord (wordAddr (pc + 2#32))] n)) ∧
  ∀ (s : State) (rd rs1 rs2 : XReg) (f : FReg) (imm : BitVec 12) (aq rl : BitVec 1) (d r : CReg) (imm5 : BitVec 5)
    (imm6 : BitVec 6) (csr : BitVec 12) (uimm : BitVec 5) (k n : Nat),
    let a := s.cpu.readX rs1 + imm.signExtend 32
    let b := s.cpu.readX rs1
    let v := s.cpu.readX rs2
    let c := fun j : Nat => s.cpu.readX (cfield r) + BitVec.ofNat 32 (j * imm5.toNat)
    let sp := fun j : Nat => s.cpu.readX 2#5 + BitVec.ofNat 32 (j * imm6.toNat)
    let lane := a.toNat % 4
    let old := s.env.wordAt 0 b
    let reads := fun (m : Nat) (a : Word) => (List.range m).map fun j => Request.readWord (a + BitVec.ofNat 32 (4 * j))
    let writes := fun (m : Nat) (a : Word) (f : FReg) => (List.range m).map fun j =>
      Request.writeWord (a + BitVec.ofNat 32 (4 * j)) ((s.cpu.readF f).extractLsb' (32 * j) 32) 0b1111#4
    let amo := fun new : Word => [Request.readWord b, .writeWord b new 0b1111#4]
    let stops := fun p : Instr × Nat × Word × List Request => p.2.2.1.toNat % p.2.1 = 0 → k < p.2.2.2.length →
      ∃ t, exec p.1 s = .next t ∧ StoppedBy s t (p.2.2.2.take (k + 1)) n
    s.env.noTrapIn k → s.env.reply k = .envTrap n →
    (∀ p ∈ ([(.lb rd rs1 imm, 1, a, [.readWord (wordAddr a)]), (.lbu rd rs1 imm, 1, a, [.readWord (wordAddr a)]),
        (.lh rd rs1 imm, 2, a, [.readWord (wordAddr a)]), (.lhu rd rs1 imm, 2, a, [.readWord (wordAddr a)]),
        (.lw rd rs1 imm, 4, a, [.readWord a]), (.cLw d r imm5, 4, c 4, [.readWord (c 4)]),
        (.cLwsp rd imm6, 4, sp 4, [.readWord (sp 4)])] : List (Instr × Nat × Word × List Request)), stops p) ∧
    (∀ p ∈ ([(.sb rs2 rs1 imm, 1, a, [.writeWord (wordAddr a) ((v &&& 0xFF#32) <<< (8 * lane)) (0b0001#4 <<< lane)]),
        (.sh rs2 rs1 imm, 2, a, [.writeWord (wordAddr a) ((v &&& 0xFFFF#32) <<< (8 * lane)) (0b0011#4 <<< lane)]),
        (.sw rs2 rs1 imm, 4, a, [.writeWord a v 0b1111#4]),
        (.cSw d r imm5, 4, c 4, [.writeWord (c 4) (s.cpu.readX (cfield d)) 0b1111#4]),
        (.cSwsp rs2 imm6, 4, sp 4, [.writeWord (sp 4) v 0b1111#4])] : List (Instr × Nat × Word × List Request)), stops p) ∧
    (∀ p ∈ ([(.flw f rs1 imm, 4, a, reads 1 a), (.fld f rs1 imm, 4, a, reads 2 a), (.flq f rs1 imm, 4, a, reads 4 a),
        (.cFlw d r imm5, 4, c 4, reads 1 (c 4)), (.cFld d r imm5, 4, c 8, reads 2 (c 8)),
        (.cFlwsp f imm6, 4, sp 4, reads 1 (sp 4)), (.cFldsp f imm6, 4, sp 8, reads 2 (sp 8))] :
        List (Instr × Nat × Word × List Request)), stops p) ∧
    (∀ p ∈ ([(.fsw f rs1 imm, 4, a, writes 1 a f), (.fsd f rs1 imm, 4, a, writes 2 a f),
        (.fsq f rs1 imm, 4, a, writes 4 a f), (.cFsw d r imm5, 4, c 4, writes 1 (c 4) (cfield d)),
        (.cFsd d r imm5, 4, c 8, writes 2 (c 8) (cfield d)), (.cFswsp f imm6, 4, sp 4, writes 1 (sp 4) f),
        (.cFsdsp f imm6, 4, sp 8, writes 2 (sp 8) f)] : List (Instr × Nat × Word × List Request)), stops p) ∧
    (∀ p ∈ ([(.lrW aq rl rd rs1, 4, b, [.loadReserved b]), (.scW aq rl rd rs1 rs2, 4, b, [.storeReserved b v]),
        (.amoswapW aq rl rd rs1 rs2, 4, b, amo v), (.amoaddW aq rl rd rs1 rs2, 4, b, amo (old + v)),
        (.amoxorW aq rl rd rs1 rs2, 4, b, amo (old ^^^ v)), (.amoandW aq rl rd rs1 rs2, 4, b, amo (old &&& v)),
        (.amoorW aq rl rd rs1 rs2, 4, b, amo (old ||| v)),
        (.amominW aq rl rd rs1 rs2, 4, b, amo (if old.toInt < v.toInt then old else v)),
        (.amomaxW aq rl rd rs1 rs2, 4, b, amo (if v.toInt < old.toInt then old else v)),
        (.amominuW aq rl rd rs1 rs2, 4, b, amo (if old.toNat < v.toNat then old else v)),
        (.amomaxuW aq rl rd rs1 rs2, 4, b, amo (if v.toNat < old.toNat then old else v))] :
        List (Instr × Nat × Word × List Request)), stops p) ∧
    (csr ∉ [0x001#12, 0x002#12, 0x003#12] →
      let was := (s.env.reply 0).wordOr (Store.read s.env.csrs csr.toNat)
      let u := uimm.setWidth 32
      ∀ p ∈ ([(.csrrw rd csr rs1, decide (rd ≠ 0#5), true, b), (.csrrs rd csr rs1, true, decide (rs1 ≠ 0#5), was ||| b),
          (.csrrc rd csr rs1, true, decide (rs1 ≠ 0#5), was &&& ~~~b), (.csrrwi rd csr uimm, decide (rd ≠ 0#5), true, u),
          (.csrrsi rd csr uimm, true, decide (uimm ≠ 0#5), was ||| u),
          (.csrrci rd csr uimm, true, decide (uimm ≠ 0#5), was &&& ~~~u)] : List (Instr × Bool × Bool × Word)),
        let kind := if p.2.1 && p.2.2.1 then AccessKind.readWrite else if p.2.1 then .readOnly else .writeOnly
        let qs := (if p.2.1 then [Request.csrRead csr kind] else []) ++
          (if p.2.2.1 then [Request.csrWrite csr p.2.2.2 kind] else [])
        k < qs.length → ∃ t, exec p.1 s = .next t ∧ StoppedBy s t (qs.take (k + 1)) n)

/-- Every step keeps the state well formed: memory and the delegated CSRs in their canonical form, a reserved address
that of a word, the f registers within FLEN bits, whatever the embedder's schedule (R49, R58, R802). An image of another
FLEN does not restore: that it leaves the core as it is, is DEDUCED (log 23), unsafe. -/
def Obligations.StepKeepsInvariant : Prop :=
  ∀ s t : State, s.Inv → step s = .next t → t.Inv

/-- The state at instantiation is well formed. Its register values are the model's choice (log 3): the spec gives none but
x0's (R800). -/
def Obligations.ResetIsWellFormed : Prop := State.reset.Inv

/-- A step keeps bit 0 of the pc at 0, from the pc it begins with after the embedder's turn; a turn that restores no image
leaves the core as it is, whatever else it does (R46, R131, R208; the turn itself is DESIGN CHOICE, log 12). -/
def Obligations.PcStaysEven : Prop :=
  (∀ s t : State, (embedderTurn s).cpu.pc.toNat % 2 = 0 → step s = .next t → t.cpu.pc.toNat % 2 = 0) ∧
  ∀ s : State, (∀ acts ∈ s.schedule.head?, ∀ act ∈ acts, ∀ c, act ≠ .restore c) → (embedderTurn s).cpu = s.cpu

/-- What no instruction, or only some, may change: the configuration, the gates, the usual answers of `SqrtMode` and
`Trap` and the schedule never; the delegated CSRs only by Zicsr; frm and the clearing of a flag only by Zicsr; FCSR and the
f registers not by I, M, A, Zifencei and the compressed forms of I; the f registers not by Zicsr (R54, R56, R201). That no
other instruction changes a delegated CSR is DESIGN CHOICE (log 6), unsafe: R350 leaves those CSRs to the environment. That no
instruction, Zicsr included, changes the gates or the usual answers of `SqrtMode` and `Trap` is PRESUMED (log 13), unsafe, and
no rule's: R15, R56 and R806 leave the gates and the effect of a delegated CSR access to the environment. That the embedder's
turns to come stay as they are is the model's form of them (log 12). -/
def Obligations.ExecutionTouchesOnlyItsOwn : Prop :=
  ∀ (i : Instr) (s t : State), exec i s = .next t →
    t.cfg = s.cfg ∧ t.schedule = s.schedule ∧ t.env.gates = s.env.gates ∧ t.env.sqrtModes = s.env.sqrtModes ∧
    t.env.onTrap = s.env.onTrap ∧
    (i.ext ≠ .zicsr → t.env.csrs = s.env.csrs ∧ t.cpu.fcsr.extractLsb' 5 3 = s.cpu.fcsr.extractLsb' 5 3 ∧
      ∀ k < 5, s.cpu.fcsr.getLsbD k = true → t.cpu.fcsr.getLsbD k = true) ∧
    (i.ext ∈ [Ext.i, .m, .a, .zifencei, .c] → t.cpu.fcsr = s.cpu.fcsr) ∧
    (i.ext ∈ [Ext.i, .m, .a, .zifencei, .zicsr, .c] → ∀ r, t.cpu.readF r = s.cpu.readF r)

/-- A retired instruction that wrote a word leaves no reservation of it, and one that issued a `StoreReservedWord` leaves
none at all (R12, R58, R335). -/
def Obligations.WritesEndReservations : Prop :=
  ∀ (i : Instr) (s t : State), exec i s = .next t → t.outcome = some .advanced →
    ∃ l, t.env.requests = s.env.requests ++ l ∧
      (∀ a v be, .writeWord a v be ∈ l → t.env.reservation ≠ some a) ∧
      ∀ a v, .storeReserved a v ∈ l → t.env.reservation = none

/-- An image of the instance's FLEN, restored before a step, is the core's state when the step begins, every value as given;
so a core restored from the image saved of one holding FLEN bits is that core again (R59, R716, R801). An image of another
FLEN does not restore (R802): that it leaves the core as it is, is DEDUCED (log 23), unsafe. That the embedder acts in a turn
at the head of its schedule is DESIGN CHOICE (log 12), and that the record of requests is empty when the step begins is
DESIGN CHOICE (log 11). -/
def Obligations.EmbedderRestores : Prop :=
  ∀ (s : State) (image : CpuImage) (rest : List (List EmbedderAction)), s.schedule = [.restore image] :: rest →
    let b := beginStep s
    (image.flen = s.cfg.flen → b.cpu.x = image.x ∧ b.cpu.pc = image.pc ∧ b.cpu.fcsr = image.fcsr ∧
      ∀ i : Fin 32, b.cpu.f[i] = (image.f[i]).setWidth 128) ∧
    (∀ t : State, image = t.image → t.cfg.flen = s.cfg.flen → t.cpu.wf t.cfg.flen → b.cpu = t.cpu) ∧
    (image.flen ≠ s.cfg.flen → b.cpu = s.cpu) ∧
    b.schedule = rest ∧ b.cfg = s.cfg ∧ b.env = { s.env with requests := [] }

end
end

