-- ==== Sys2Proof/Laws/Encoding.lean ====
section
/-! SUPPORT. The decoder's fields of what the encoder builds, one lemma per field of each format, and each format rebuilt
from its fields. -/
namespace Sys2Proof

open Enc


/-! ### mkR -/

@[simp] theorem opcode_mkR (f7 : BitVec 7) (rs2 rs1 : BitVec 5) (f3 : BitVec 3) (rd : BitVec 5) (opc : BitVec 7) :
    Fields.opcode (mkR f7 rs2 rs1 f3 rd opc) = opc := by
  apply BitVec.eq_of_getLsbD_eq
  intro i hi
  simp only [Fields.opcode, Enc.mkR, BitVec.getLsbD_extractLsb', BitVec.getLsbD_cast, BitVec.getLsbD_append]
  interval_cases i <;> rfl

@[simp] theorem rd_mkR (f7 : BitVec 7) (rs2 rs1 : BitVec 5) (f3 : BitVec 3) (rd : BitVec 5) (opc : BitVec 7) :
    Fields.rd (mkR f7 rs2 rs1 f3 rd opc) = rd := by
  apply BitVec.eq_of_getLsbD_eq
  intro i hi
  simp only [Fields.rd, Enc.mkR, BitVec.getLsbD_extractLsb', BitVec.getLsbD_cast, BitVec.getLsbD_append]
  interval_cases i <;> rfl

@[simp] theorem funct3_mkR (f7 : BitVec 7) (rs2 rs1 : BitVec 5) (f3 : BitVec 3) (rd : BitVec 5) (opc : BitVec 7) :
    Fields.funct3 (mkR f7 rs2 rs1 f3 rd opc) = f3 := by
  apply BitVec.eq_of_getLsbD_eq
  intro i hi
  simp only [Fields.funct3, Enc.mkR, BitVec.getLsbD_extractLsb', BitVec.getLsbD_cast, BitVec.getLsbD_append]
  interval_cases i <;> rfl

@[simp] theorem rs1_mkR (f7 : BitVec 7) (rs2 rs1 : BitVec 5) (f3 : BitVec 3) (rd : BitVec 5) (opc : BitVec 7) :
    Fields.rs1 (mkR f7 rs2 rs1 f3 rd opc) = rs1 := by
  apply BitVec.eq_of_getLsbD_eq
  intro i hi
  simp only [Fields.rs1, Enc.mkR, BitVec.getLsbD_extractLsb', BitVec.getLsbD_cast, BitVec.getLsbD_append]
  interval_cases i <;> rfl

@[simp] theorem rs2_mkR (f7 : BitVec 7) (rs2 rs1 : BitVec 5) (f3 : BitVec 3) (rd : BitVec 5) (opc : BitVec 7) :
    Fields.rs2 (mkR f7 rs2 rs1 f3 rd opc) = rs2 := by
  apply BitVec.eq_of_getLsbD_eq
  intro i hi
  simp only [Fields.rs2, Enc.mkR, BitVec.getLsbD_extractLsb', BitVec.getLsbD_cast, BitVec.getLsbD_append]
  interval_cases i <;> rfl

@[simp] theorem funct7_mkR (f7 : BitVec 7) (rs2 rs1 : BitVec 5) (f3 : BitVec 3) (rd : BitVec 5) (opc : BitVec 7) :
    Fields.funct7 (mkR f7 rs2 rs1 f3 rd opc) = f7 := by
  apply BitVec.eq_of_getLsbD_eq
  intro i hi
  simp only [Fields.funct7, Enc.mkR, BitVec.getLsbD_extractLsb', BitVec.getLsbD_cast, BitVec.getLsbD_append]
  interval_cases i <;> rfl

theorem mkR_fields (w : Word) : mkR (Fields.funct7 w) (Fields.rs2 w) (Fields.rs1 w) (Fields.funct3 w) (Fields.rd w) (Fields.opcode w) = w := by
  apply BitVec.eq_of_getLsbD_eq
  intro i hi
  simp only [Fields.funct3, Fields.funct7, Fields.opcode, Fields.rd, Fields.rs1, Fields.rs2, mkR, BitVec.getLsbD_extractLsb', BitVec.getLsbD_cast, BitVec.getLsbD_append]
  interval_cases i <;> rfl

/-! ### mkR4 -/

@[simp] theorem opcode_mkR4 (f5 : BitVec 5) (fm : BitVec 2) (rs2 rs1 : BitVec 5) (f3 : BitVec 3) (rd : BitVec 5) (opc : BitVec 7) :
    Fields.opcode (mkR4 f5 fm rs2 rs1 f3 rd opc) = opc := by
  apply BitVec.eq_of_getLsbD_eq
  intro i hi
  simp only [Fields.opcode, Enc.mkR4, BitVec.getLsbD_extractLsb', BitVec.getLsbD_cast, BitVec.getLsbD_append]
  interval_cases i <;> rfl

@[simp] theorem rd_mkR4 (f5 : BitVec 5) (fm : BitVec 2) (rs2 rs1 : BitVec 5) (f3 : BitVec 3) (rd : BitVec 5) (opc : BitVec 7) :
    Fields.rd (mkR4 f5 fm rs2 rs1 f3 rd opc) = rd := by
  apply BitVec.eq_of_getLsbD_eq
  intro i hi
  simp only [Fields.rd, Enc.mkR4, BitVec.getLsbD_extractLsb', BitVec.getLsbD_cast, BitVec.getLsbD_append]
  interval_cases i <;> rfl

@[simp] theorem funct3_mkR4 (f5 : BitVec 5) (fm : BitVec 2) (rs2 rs1 : BitVec 5) (f3 : BitVec 3) (rd : BitVec 5) (opc : BitVec 7) :
    Fields.funct3 (mkR4 f5 fm rs2 rs1 f3 rd opc) = f3 := by
  apply BitVec.eq_of_getLsbD_eq
  intro i hi
  simp only [Fields.funct3, Enc.mkR4, BitVec.getLsbD_extractLsb', BitVec.getLsbD_cast, BitVec.getLsbD_append]
  interval_cases i <;> rfl

@[simp] theorem rs1_mkR4 (f5 : BitVec 5) (fm : BitVec 2) (rs2 rs1 : BitVec 5) (f3 : BitVec 3) (rd : BitVec 5) (opc : BitVec 7) :
    Fields.rs1 (mkR4 f5 fm rs2 rs1 f3 rd opc) = rs1 := by
  apply BitVec.eq_of_getLsbD_eq
  intro i hi
  simp only [Fields.rs1, Enc.mkR4, BitVec.getLsbD_extractLsb', BitVec.getLsbD_cast, BitVec.getLsbD_append]
  interval_cases i <;> rfl

@[simp] theorem rs2_mkR4 (f5 : BitVec 5) (fm : BitVec 2) (rs2 rs1 : BitVec 5) (f3 : BitVec 3) (rd : BitVec 5) (opc : BitVec 7) :
    Fields.rs2 (mkR4 f5 fm rs2 rs1 f3 rd opc) = rs2 := by
  apply BitVec.eq_of_getLsbD_eq
  intro i hi
  simp only [Fields.rs2, Enc.mkR4, BitVec.getLsbD_extractLsb', BitVec.getLsbD_cast, BitVec.getLsbD_append]
  interval_cases i <;> rfl

@[simp] theorem fmt_mkR4 (f5 : BitVec 5) (fm : BitVec 2) (rs2 rs1 : BitVec 5) (f3 : BitVec 3) (rd : BitVec 5) (opc : BitVec 7) :
    Fields.fmt (mkR4 f5 fm rs2 rs1 f3 rd opc) = fm := by
  apply BitVec.eq_of_getLsbD_eq
  intro i hi
  simp only [Fields.fmt, Enc.mkR4, BitVec.getLsbD_extractLsb', BitVec.getLsbD_cast, BitVec.getLsbD_append]
  interval_cases i <;> rfl

@[simp] theorem funct5_mkR4 (f5 : BitVec 5) (fm : BitVec 2) (rs2 rs1 : BitVec 5) (f3 : BitVec 3) (rd : BitVec 5) (opc : BitVec 7) :
    Fields.funct5 (mkR4 f5 fm rs2 rs1 f3 rd opc) = f5 := by
  apply BitVec.eq_of_getLsbD_eq
  intro i hi
  simp only [Fields.funct5, Enc.mkR4, BitVec.getLsbD_extractLsb', BitVec.getLsbD_cast, BitVec.getLsbD_append]
  interval_cases i <;> rfl

theorem mkR4_fields (w : Word) : mkR4 (Fields.funct5 w) (Fields.fmt w) (Fields.rs2 w) (Fields.rs1 w) (Fields.funct3 w) (Fields.rd w) (Fields.opcode w) = w := by
  apply BitVec.eq_of_getLsbD_eq
  intro i hi
  simp only [Fields.fmt, Fields.funct3, Fields.funct5, Fields.opcode, Fields.rd, Fields.rs1, Fields.rs2, mkR4, BitVec.getLsbD_extractLsb', BitVec.getLsbD_cast, BitVec.getLsbD_append]
  interval_cases i <;> rfl

/-! ### mkAmo -/

@[simp] theorem opcode_mkAmo (f5 : BitVec 5) (aq rl : BitVec 1) (rs2 rs1 : BitVec 5) (f3 : BitVec 3) (rd : BitVec 5) (opc : BitVec 7) :
    Fields.opcode (mkAmo f5 aq rl rs2 rs1 f3 rd opc) = opc := by
  apply BitVec.eq_of_getLsbD_eq
  intro i hi
  simp only [Fields.opcode, Enc.mkAmo, BitVec.getLsbD_extractLsb', BitVec.getLsbD_cast, BitVec.getLsbD_append]
  interval_cases i <;> rfl

@[simp] theorem rd_mkAmo (f5 : BitVec 5) (aq rl : BitVec 1) (rs2 rs1 : BitVec 5) (f3 : BitVec 3) (rd : BitVec 5) (opc : BitVec 7) :
    Fields.rd (mkAmo f5 aq rl rs2 rs1 f3 rd opc) = rd := by
  apply BitVec.eq_of_getLsbD_eq
  intro i hi
  simp only [Fields.rd, Enc.mkAmo, BitVec.getLsbD_extractLsb', BitVec.getLsbD_cast, BitVec.getLsbD_append]
  interval_cases i <;> rfl

@[simp] theorem funct3_mkAmo (f5 : BitVec 5) (aq rl : BitVec 1) (rs2 rs1 : BitVec 5) (f3 : BitVec 3) (rd : BitVec 5) (opc : BitVec 7) :
    Fields.funct3 (mkAmo f5 aq rl rs2 rs1 f3 rd opc) = f3 := by
  apply BitVec.eq_of_getLsbD_eq
  intro i hi
  simp only [Fields.funct3, Enc.mkAmo, BitVec.getLsbD_extractLsb', BitVec.getLsbD_cast, BitVec.getLsbD_append]
  interval_cases i <;> rfl

@[simp] theorem rs1_mkAmo (f5 : BitVec 5) (aq rl : BitVec 1) (rs2 rs1 : BitVec 5) (f3 : BitVec 3) (rd : BitVec 5) (opc : BitVec 7) :
    Fields.rs1 (mkAmo f5 aq rl rs2 rs1 f3 rd opc) = rs1 := by
  apply BitVec.eq_of_getLsbD_eq
  intro i hi
  simp only [Fields.rs1, Enc.mkAmo, BitVec.getLsbD_extractLsb', BitVec.getLsbD_cast, BitVec.getLsbD_append]
  interval_cases i <;> rfl

@[simp] theorem rs2_mkAmo (f5 : BitVec 5) (aq rl : BitVec 1) (rs2 rs1 : BitVec 5) (f3 : BitVec 3) (rd : BitVec 5) (opc : BitVec 7) :
    Fields.rs2 (mkAmo f5 aq rl rs2 rs1 f3 rd opc) = rs2 := by
  apply BitVec.eq_of_getLsbD_eq
  intro i hi
  simp only [Fields.rs2, Enc.mkAmo, BitVec.getLsbD_extractLsb', BitVec.getLsbD_cast, BitVec.getLsbD_append]
  interval_cases i <;> rfl

@[simp] theorem aq_mkAmo (f5 : BitVec 5) (aq rl : BitVec 1) (rs2 rs1 : BitVec 5) (f3 : BitVec 3) (rd : BitVec 5) (opc : BitVec 7) :
    Fields.aq (mkAmo f5 aq rl rs2 rs1 f3 rd opc) = aq := by
  apply BitVec.eq_of_getLsbD_eq
  intro i hi
  simp only [Fields.aq, Enc.mkAmo, BitVec.getLsbD_extractLsb', BitVec.getLsbD_cast, BitVec.getLsbD_append]
  interval_cases i; rfl

@[simp] theorem rl_mkAmo (f5 : BitVec 5) (aq rl : BitVec 1) (rs2 rs1 : BitVec 5) (f3 : BitVec 3) (rd : BitVec 5) (opc : BitVec 7) :
    Fields.rl (mkAmo f5 aq rl rs2 rs1 f3 rd opc) = rl := by
  apply BitVec.eq_of_getLsbD_eq
  intro i hi
  simp only [Fields.rl, Enc.mkAmo, BitVec.getLsbD_extractLsb', BitVec.getLsbD_cast, BitVec.getLsbD_append]
  interval_cases i; rfl

@[simp] theorem funct5_mkAmo (f5 : BitVec 5) (aq rl : BitVec 1) (rs2 rs1 : BitVec 5) (f3 : BitVec 3) (rd : BitVec 5) (opc : BitVec 7) :
    Fields.funct5 (mkAmo f5 aq rl rs2 rs1 f3 rd opc) = f5 := by
  apply BitVec.eq_of_getLsbD_eq
  intro i hi
  simp only [Fields.funct5, Enc.mkAmo, BitVec.getLsbD_extractLsb', BitVec.getLsbD_cast, BitVec.getLsbD_append]
  interval_cases i <;> rfl

theorem mkAmo_fields (w : Word) : mkAmo (Fields.funct5 w) (Fields.aq w) (Fields.rl w) (Fields.rs2 w) (Fields.rs1 w) (Fields.funct3 w) (Fields.rd w) (Fields.opcode w) = w := by
  apply BitVec.eq_of_getLsbD_eq
  intro i hi
  simp only [Fields.aq, Fields.funct3, Fields.funct5, Fields.opcode, Fields.rd, Fields.rl, Fields.rs1, Fields.rs2, mkAmo, BitVec.getLsbD_extractLsb', BitVec.getLsbD_cast, BitVec.getLsbD_append]
  interval_cases i <;> rfl

/-! ### mkFence -/

@[simp] theorem opcode_mkFence (fm pred succ : BitVec 4) (rs1 : BitVec 5) (f3 : BitVec 3) (rd : BitVec 5) (opc : BitVec 7) :
    Fields.opcode (mkFence fm pred succ rs1 f3 rd opc) = opc := by
  apply BitVec.eq_of_getLsbD_eq
  intro i hi
  simp only [Fields.opcode, Enc.mkFence, BitVec.getLsbD_extractLsb', BitVec.getLsbD_cast, BitVec.getLsbD_append]
  interval_cases i <;> rfl

@[simp] theorem rd_mkFence (fm pred succ : BitVec 4) (rs1 : BitVec 5) (f3 : BitVec 3) (rd : BitVec 5) (opc : BitVec 7) :
    Fields.rd (mkFence fm pred succ rs1 f3 rd opc) = rd := by
  apply BitVec.eq_of_getLsbD_eq
  intro i hi
  simp only [Fields.rd, Enc.mkFence, BitVec.getLsbD_extractLsb', BitVec.getLsbD_cast, BitVec.getLsbD_append]
  interval_cases i <;> rfl

@[simp] theorem funct3_mkFence (fm pred succ : BitVec 4) (rs1 : BitVec 5) (f3 : BitVec 3) (rd : BitVec 5) (opc : BitVec 7) :
    Fields.funct3 (mkFence fm pred succ rs1 f3 rd opc) = f3 := by
  apply BitVec.eq_of_getLsbD_eq
  intro i hi
  simp only [Fields.funct3, Enc.mkFence, BitVec.getLsbD_extractLsb', BitVec.getLsbD_cast, BitVec.getLsbD_append]
  interval_cases i <;> rfl

@[simp] theorem rs1_mkFence (fm pred succ : BitVec 4) (rs1 : BitVec 5) (f3 : BitVec 3) (rd : BitVec 5) (opc : BitVec 7) :
    Fields.rs1 (mkFence fm pred succ rs1 f3 rd opc) = rs1 := by
  apply BitVec.eq_of_getLsbD_eq
  intro i hi
  simp only [Fields.rs1, Enc.mkFence, BitVec.getLsbD_extractLsb', BitVec.getLsbD_cast, BitVec.getLsbD_append]
  interval_cases i <;> rfl

@[simp] theorem fm_mkFence (fm pred succ : BitVec 4) (rs1 : BitVec 5) (f3 : BitVec 3) (rd : BitVec 5) (opc : BitVec 7) :
    Fields.fm (mkFence fm pred succ rs1 f3 rd opc) = fm := by
  apply BitVec.eq_of_getLsbD_eq
  intro i hi
  simp only [Fields.fm, Enc.mkFence, BitVec.getLsbD_extractLsb', BitVec.getLsbD_cast, BitVec.getLsbD_append]
  interval_cases i <;> rfl

@[simp] theorem pred_mkFence (fm pred succ : BitVec 4) (rs1 : BitVec 5) (f3 : BitVec 3) (rd : BitVec 5) (opc : BitVec 7) :
    Fields.pred (mkFence fm pred succ rs1 f3 rd opc) = pred := by
  apply BitVec.eq_of_getLsbD_eq
  intro i hi
  simp only [Fields.pred, Enc.mkFence, BitVec.getLsbD_extractLsb', BitVec.getLsbD_cast, BitVec.getLsbD_append]
  interval_cases i <;> rfl

@[simp] theorem succ_mkFence (fm pred succ : BitVec 4) (rs1 : BitVec 5) (f3 : BitVec 3) (rd : BitVec 5) (opc : BitVec 7) :
    Fields.succ (mkFence fm pred succ rs1 f3 rd opc) = succ := by
  apply BitVec.eq_of_getLsbD_eq
  intro i hi
  simp only [Fields.succ, Enc.mkFence, BitVec.getLsbD_extractLsb', BitVec.getLsbD_cast, BitVec.getLsbD_append]
  interval_cases i <;> rfl

theorem mkFence_fields (w : Word) : mkFence (Fields.fm w) (Fields.pred w) (Fields.succ w) (Fields.rs1 w) (Fields.funct3 w) (Fields.rd w) (Fields.opcode w) = w := by
  apply BitVec.eq_of_getLsbD_eq
  intro i hi
  simp only [Fields.fm, Fields.funct3, Fields.opcode, Fields.pred, Fields.rd, Fields.rs1, Fields.succ, mkFence, BitVec.getLsbD_extractLsb', BitVec.getLsbD_cast, BitVec.getLsbD_append]
  interval_cases i <;> rfl

/-! ### mkI -/

@[simp] theorem opcode_mkI (imm : BitVec 12) (rs1 : BitVec 5) (f3 : BitVec 3) (rd : BitVec 5) (opc : BitVec 7) :
    Fields.opcode (mkI imm rs1 f3 rd opc) = opc := by
  apply BitVec.eq_of_getLsbD_eq
  intro i hi
  simp only [Fields.opcode, Enc.mkI, BitVec.getLsbD_extractLsb', BitVec.getLsbD_cast, BitVec.getLsbD_append]
  interval_cases i <;> rfl

@[simp] theorem rd_mkI (imm : BitVec 12) (rs1 : BitVec 5) (f3 : BitVec 3) (rd : BitVec 5) (opc : BitVec 7) :
    Fields.rd (mkI imm rs1 f3 rd opc) = rd := by
  apply BitVec.eq_of_getLsbD_eq
  intro i hi
  simp only [Fields.rd, Enc.mkI, BitVec.getLsbD_extractLsb', BitVec.getLsbD_cast, BitVec.getLsbD_append]
  interval_cases i <;> rfl

@[simp] theorem funct3_mkI (imm : BitVec 12) (rs1 : BitVec 5) (f3 : BitVec 3) (rd : BitVec 5) (opc : BitVec 7) :
    Fields.funct3 (mkI imm rs1 f3 rd opc) = f3 := by
  apply BitVec.eq_of_getLsbD_eq
  intro i hi
  simp only [Fields.funct3, Enc.mkI, BitVec.getLsbD_extractLsb', BitVec.getLsbD_cast, BitVec.getLsbD_append]
  interval_cases i <;> rfl

@[simp] theorem rs1_mkI (imm : BitVec 12) (rs1 : BitVec 5) (f3 : BitVec 3) (rd : BitVec 5) (opc : BitVec 7) :
    Fields.rs1 (mkI imm rs1 f3 rd opc) = rs1 := by
  apply BitVec.eq_of_getLsbD_eq
  intro i hi
  simp only [Fields.rs1, Enc.mkI, BitVec.getLsbD_extractLsb', BitVec.getLsbD_cast, BitVec.getLsbD_append]
  interval_cases i <;> rfl

@[simp] theorem immI_mkI (imm : BitVec 12) (rs1 : BitVec 5) (f3 : BitVec 3) (rd : BitVec 5) (opc : BitVec 7) :
    Fields.immI (mkI imm rs1 f3 rd opc) = imm := by
  apply BitVec.eq_of_getLsbD_eq
  intro i hi
  simp only [Fields.immI, Enc.mkI, BitVec.getLsbD_extractLsb', BitVec.getLsbD_cast, BitVec.getLsbD_append]
  interval_cases i <;> rfl

theorem mkI_fields (w : Word) : mkI (Fields.immI w) (Fields.rs1 w) (Fields.funct3 w) (Fields.rd w) (Fields.opcode w) = w := by
  apply BitVec.eq_of_getLsbD_eq
  intro i hi
  simp only [Fields.funct3, Fields.immI, Fields.opcode, Fields.rd, Fields.rs1, mkI, BitVec.getLsbD_extractLsb', BitVec.getLsbD_cast, BitVec.getLsbD_append]
  interval_cases i <;> rfl

/-! ### mkS -/

@[simp] theorem opcode_mkS (imm : BitVec 12) (rs2 rs1 : BitVec 5) (f3 : BitVec 3) (opc : BitVec 7) :
    Fields.opcode (mkS imm rs2 rs1 f3 opc) = opc := by
  apply BitVec.eq_of_getLsbD_eq
  intro i hi
  simp only [Fields.opcode, Enc.mkS, BitVec.getLsbD_extractLsb', BitVec.getLsbD_cast, BitVec.getLsbD_append]
  interval_cases i <;> rfl

@[simp] theorem funct3_mkS (imm : BitVec 12) (rs2 rs1 : BitVec 5) (f3 : BitVec 3) (opc : BitVec 7) :
    Fields.funct3 (mkS imm rs2 rs1 f3 opc) = f3 := by
  apply BitVec.eq_of_getLsbD_eq
  intro i hi
  simp only [Fields.funct3, Enc.mkS, BitVec.getLsbD_extractLsb', BitVec.getLsbD_cast, BitVec.getLsbD_append]
  interval_cases i <;> rfl

@[simp] theorem rs1_mkS (imm : BitVec 12) (rs2 rs1 : BitVec 5) (f3 : BitVec 3) (opc : BitVec 7) :
    Fields.rs1 (mkS imm rs2 rs1 f3 opc) = rs1 := by
  apply BitVec.eq_of_getLsbD_eq
  intro i hi
  simp only [Fields.rs1, Enc.mkS, BitVec.getLsbD_extractLsb', BitVec.getLsbD_cast, BitVec.getLsbD_append]
  interval_cases i <;> rfl

@[simp] theorem rs2_mkS (imm : BitVec 12) (rs2 rs1 : BitVec 5) (f3 : BitVec 3) (opc : BitVec 7) :
    Fields.rs2 (mkS imm rs2 rs1 f3 opc) = rs2 := by
  apply BitVec.eq_of_getLsbD_eq
  intro i hi
  simp only [Fields.rs2, Enc.mkS, BitVec.getLsbD_extractLsb', BitVec.getLsbD_cast, BitVec.getLsbD_append]
  interval_cases i <;> rfl

@[simp] theorem immS_mkS (imm : BitVec 12) (rs2 rs1 : BitVec 5) (f3 : BitVec 3) (opc : BitVec 7) :
    Fields.immS (mkS imm rs2 rs1 f3 opc) = imm := by
  apply BitVec.eq_of_getLsbD_eq
  intro i hi
  simp only [Fields.immS, Enc.mkS, BitVec.getLsbD_extractLsb', BitVec.getLsbD_cast, BitVec.getLsbD_append]
  interval_cases i <;> rfl

theorem mkS_fields (w : Word) : mkS (Fields.immS w) (Fields.rs2 w) (Fields.rs1 w) (Fields.funct3 w) (Fields.opcode w) = w := by
  apply BitVec.eq_of_getLsbD_eq
  intro i hi
  simp only [Fields.funct3, Fields.immS, Fields.opcode, Fields.rs1, Fields.rs2, mkS, BitVec.getLsbD_extractLsb', BitVec.getLsbD_cast, BitVec.getLsbD_append]
  interval_cases i <;> rfl

/-! ### mkB -/

@[simp] theorem opcode_mkB (off : BitVec 12) (rs2 rs1 : BitVec 5) (f3 : BitVec 3) (opc : BitVec 7) :
    Fields.opcode (mkB off rs2 rs1 f3 opc) = opc := by
  apply BitVec.eq_of_getLsbD_eq
  intro i hi
  simp only [Fields.opcode, Enc.mkB, BitVec.getLsbD_extractLsb', BitVec.getLsbD_cast, BitVec.getLsbD_append]
  interval_cases i <;> rfl

@[simp] theorem funct3_mkB (off : BitVec 12) (rs2 rs1 : BitVec 5) (f3 : BitVec 3) (opc : BitVec 7) :
    Fields.funct3 (mkB off rs2 rs1 f3 opc) = f3 := by
  apply BitVec.eq_of_getLsbD_eq
  intro i hi
  simp only [Fields.funct3, Enc.mkB, BitVec.getLsbD_extractLsb', BitVec.getLsbD_cast, BitVec.getLsbD_append]
  interval_cases i <;> rfl

@[simp] theorem rs1_mkB (off : BitVec 12) (rs2 rs1 : BitVec 5) (f3 : BitVec 3) (opc : BitVec 7) :
    Fields.rs1 (mkB off rs2 rs1 f3 opc) = rs1 := by
  apply BitVec.eq_of_getLsbD_eq
  intro i hi
  simp only [Fields.rs1, Enc.mkB, BitVec.getLsbD_extractLsb', BitVec.getLsbD_cast, BitVec.getLsbD_append]
  interval_cases i <;> rfl

@[simp] theorem rs2_mkB (off : BitVec 12) (rs2 rs1 : BitVec 5) (f3 : BitVec 3) (opc : BitVec 7) :
    Fields.rs2 (mkB off rs2 rs1 f3 opc) = rs2 := by
  apply BitVec.eq_of_getLsbD_eq
  intro i hi
  simp only [Fields.rs2, Enc.mkB, BitVec.getLsbD_extractLsb', BitVec.getLsbD_cast, BitVec.getLsbD_append]
  interval_cases i <;> rfl

@[simp] theorem offB_mkB (off : BitVec 12) (rs2 rs1 : BitVec 5) (f3 : BitVec 3) (opc : BitVec 7) :
    Fields.offB (mkB off rs2 rs1 f3 opc) = off := by
  apply BitVec.eq_of_getLsbD_eq
  intro i hi
  simp only [Fields.offB, Enc.mkB, BitVec.getLsbD_extractLsb', BitVec.getLsbD_cast, BitVec.getLsbD_append]
  interval_cases i <;> rfl

theorem mkB_fields (w : Word) : mkB (Fields.offB w) (Fields.rs2 w) (Fields.rs1 w) (Fields.funct3 w) (Fields.opcode w) = w := by
  apply BitVec.eq_of_getLsbD_eq
  intro i hi
  simp only [Fields.funct3, Fields.offB, Fields.opcode, Fields.rs1, Fields.rs2, mkB, BitVec.getLsbD_extractLsb', BitVec.getLsbD_cast, BitVec.getLsbD_append]
  interval_cases i <;> rfl

/-! ### mkU -/

@[simp] theorem opcode_mkU (imm : BitVec 20) (rd : BitVec 5) (opc : BitVec 7) :
    Fields.opcode (mkU imm rd opc) = opc := by
  apply BitVec.eq_of_getLsbD_eq
  intro i hi
  simp only [Fields.opcode, Enc.mkU, BitVec.getLsbD_extractLsb', BitVec.getLsbD_cast, BitVec.getLsbD_append]
  interval_cases i <;> rfl

@[simp] theorem rd_mkU (imm : BitVec 20) (rd : BitVec 5) (opc : BitVec 7) :
    Fields.rd (mkU imm rd opc) = rd := by
  apply BitVec.eq_of_getLsbD_eq
  intro i hi
  simp only [Fields.rd, Enc.mkU, BitVec.getLsbD_extractLsb', BitVec.getLsbD_cast, BitVec.getLsbD_append]
  interval_cases i <;> rfl

@[simp] theorem immU_mkU (imm : BitVec 20) (rd : BitVec 5) (opc : BitVec 7) :
    Fields.immU (mkU imm rd opc) = imm := by
  apply BitVec.eq_of_getLsbD_eq
  intro i hi
  simp only [Fields.immU, Enc.mkU, BitVec.getLsbD_extractLsb', BitVec.getLsbD_cast, BitVec.getLsbD_append]
  interval_cases i <;> rfl

theorem mkU_fields (w : Word) : mkU (Fields.immU w) (Fields.rd w) (Fields.opcode w) = w := by
  apply BitVec.eq_of_getLsbD_eq
  intro i hi
  simp only [Fields.immU, Fields.opcode, Fields.rd, mkU, BitVec.getLsbD_extractLsb', BitVec.getLsbD_cast, BitVec.getLsbD_append]
  interval_cases i <;> rfl

/-! ### mkJ -/

@[simp] theorem opcode_mkJ (off : BitVec 20) (rd : BitVec 5) (opc : BitVec 7) :
    Fields.opcode (mkJ off rd opc) = opc := by
  apply BitVec.eq_of_getLsbD_eq
  intro i hi
  simp only [Fields.opcode, Enc.mkJ, BitVec.getLsbD_extractLsb', BitVec.getLsbD_cast, BitVec.getLsbD_append]
  interval_cases i <;> rfl

@[simp] theorem rd_mkJ (off : BitVec 20) (rd : BitVec 5) (opc : BitVec 7) :
    Fields.rd (mkJ off rd opc) = rd := by
  apply BitVec.eq_of_getLsbD_eq
  intro i hi
  simp only [Fields.rd, Enc.mkJ, BitVec.getLsbD_extractLsb', BitVec.getLsbD_cast, BitVec.getLsbD_append]
  interval_cases i <;> rfl

@[simp] theorem offJ_mkJ (off : BitVec 20) (rd : BitVec 5) (opc : BitVec 7) :
    Fields.offJ (mkJ off rd opc) = off := by
  apply BitVec.eq_of_getLsbD_eq
  intro i hi
  simp only [Fields.offJ, Enc.mkJ, BitVec.getLsbD_extractLsb', BitVec.getLsbD_cast, BitVec.getLsbD_append]
  interval_cases i <;> rfl

theorem mkJ_fields (w : Word) : mkJ (Fields.offJ w) (Fields.rd w) (Fields.opcode w) = w := by
  apply BitVec.eq_of_getLsbD_eq
  intro i hi
  simp only [Fields.offJ, Fields.opcode, Fields.rd, mkJ, BitVec.getLsbD_extractLsb', BitVec.getLsbD_cast, BitVec.getLsbD_append]
  interval_cases i <;> rfl

/-! ### mkCIW -/

@[simp] theorem op_mkCIW (f3 : BitVec 3) (imm : BitVec 8) (rd : BitVec 3) (o : BitVec 2) :
    Fields.op (mkCIW f3 imm rd o) = o := by
  apply BitVec.eq_of_getLsbD_eq
  intro i hi
  simp only [Fields.op, Enc.mkCIW, BitVec.getLsbD_extractLsb', BitVec.getLsbD_cast, BitVec.getLsbD_append]
  interval_cases i <;> rfl

@[simp] theorem cFunct3_mkCIW (f3 : BitVec 3) (imm : BitVec 8) (rd : BitVec 3) (o : BitVec 2) :
    Fields.cFunct3 (mkCIW f3 imm rd o) = f3 := by
  apply BitVec.eq_of_getLsbD_eq
  intro i hi
  simp only [Fields.cFunct3, Enc.mkCIW, BitVec.getLsbD_extractLsb', BitVec.getLsbD_cast, BitVec.getLsbD_append]
  interval_cases i <;> rfl

@[simp] theorem cRs2'_mkCIW (f3 : BitVec 3) (imm : BitVec 8) (rd : BitVec 3) (o : BitVec 2) :
    Fields.cRs2' (mkCIW f3 imm rd o) = rd := by
  apply BitVec.eq_of_getLsbD_eq
  intro i hi
  simp only [Fields.cRs2', Enc.mkCIW, BitVec.getLsbD_extractLsb', BitVec.getLsbD_cast, BitVec.getLsbD_append]
  interval_cases i <;> rfl

@[simp] theorem immCIW_mkCIW (f3 : BitVec 3) (imm : BitVec 8) (rd : BitVec 3) (o : BitVec 2) :
    Fields.immCIW (mkCIW f3 imm rd o) = imm := by
  apply BitVec.eq_of_getLsbD_eq
  intro i hi
  simp only [Fields.immCIW, Enc.mkCIW, BitVec.getLsbD_extractLsb', BitVec.getLsbD_cast, BitVec.getLsbD_append]
  interval_cases i <;> rfl

theorem mkCIW_fields (w : Parcel) : mkCIW (Fields.cFunct3 w) (Fields.immCIW w) (Fields.cRs2' w) (Fields.op w) = w := by
  apply BitVec.eq_of_getLsbD_eq
  intro i hi
  simp only [Fields.cFunct3, Fields.cRs2', Fields.immCIW, Fields.op, mkCIW, BitVec.getLsbD_extractLsb', BitVec.getLsbD_cast, BitVec.getLsbD_append]
  interval_cases i <;> rfl

/-! ### mkCLD -/

@[simp] theorem op_mkCLD (f3 : BitVec 3) (imm : BitVec 5) (rs1 r : BitVec 3) (o : BitVec 2) :
    Fields.op (mkCLD f3 imm rs1 r o) = o := by
  apply BitVec.eq_of_getLsbD_eq
  intro i hi
  simp only [Fields.op, Enc.mkCLD, BitVec.getLsbD_extractLsb', BitVec.getLsbD_cast, BitVec.getLsbD_append]
  interval_cases i <;> rfl

@[simp] theorem cFunct3_mkCLD (f3 : BitVec 3) (imm : BitVec 5) (rs1 r : BitVec 3) (o : BitVec 2) :
    Fields.cFunct3 (mkCLD f3 imm rs1 r o) = f3 := by
  apply BitVec.eq_of_getLsbD_eq
  intro i hi
  simp only [Fields.cFunct3, Enc.mkCLD, BitVec.getLsbD_extractLsb', BitVec.getLsbD_cast, BitVec.getLsbD_append]
  interval_cases i <;> rfl

@[simp] theorem cRs1'_mkCLD (f3 : BitVec 3) (imm : BitVec 5) (rs1 r : BitVec 3) (o : BitVec 2) :
    Fields.cRs1' (mkCLD f3 imm rs1 r o) = rs1 := by
  apply BitVec.eq_of_getLsbD_eq
  intro i hi
  simp only [Fields.cRs1', Enc.mkCLD, BitVec.getLsbD_extractLsb', BitVec.getLsbD_cast, BitVec.getLsbD_append]
  interval_cases i <;> rfl

@[simp] theorem cRs2'_mkCLD (f3 : BitVec 3) (imm : BitVec 5) (rs1 r : BitVec 3) (o : BitVec 2) :
    Fields.cRs2' (mkCLD f3 imm rs1 r o) = r := by
  apply BitVec.eq_of_getLsbD_eq
  intro i hi
  simp only [Fields.cRs2', Enc.mkCLD, BitVec.getLsbD_extractLsb', BitVec.getLsbD_cast, BitVec.getLsbD_append]
  interval_cases i <;> rfl

@[simp] theorem immCLD_mkCLD (f3 : BitVec 3) (imm : BitVec 5) (rs1 r : BitVec 3) (o : BitVec 2) :
    Fields.immCLD (mkCLD f3 imm rs1 r o) = imm := by
  apply BitVec.eq_of_getLsbD_eq
  intro i hi
  simp only [Fields.immCLD, Enc.mkCLD, BitVec.getLsbD_extractLsb', BitVec.getLsbD_cast, BitVec.getLsbD_append]
  interval_cases i <;> rfl

theorem mkCLD_fields (w : Parcel) : mkCLD (Fields.cFunct3 w) (Fields.immCLD w) (Fields.cRs1' w) (Fields.cRs2' w) (Fields.op w) = w := by
  apply BitVec.eq_of_getLsbD_eq
  intro i hi
  simp only [Fields.cFunct3, Fields.cRs1', Fields.cRs2', Fields.immCLD, Fields.op, mkCLD, BitVec.getLsbD_extractLsb', BitVec.getLsbD_cast, BitVec.getLsbD_append]
  interval_cases i <;> rfl

/-! ### mkCLW -/

@[simp] theorem op_mkCLW (f3 : BitVec 3) (imm : BitVec 5) (rs1 r : BitVec 3) (o : BitVec 2) :
    Fields.op (mkCLW f3 imm rs1 r o) = o := by
  apply BitVec.eq_of_getLsbD_eq
  intro i hi
  simp only [Fields.op, Enc.mkCLW, BitVec.getLsbD_extractLsb', BitVec.getLsbD_cast, BitVec.getLsbD_append]
  interval_cases i <;> rfl

@[simp] theorem cFunct3_mkCLW (f3 : BitVec 3) (imm : BitVec 5) (rs1 r : BitVec 3) (o : BitVec 2) :
    Fields.cFunct3 (mkCLW f3 imm rs1 r o) = f3 := by
  apply BitVec.eq_of_getLsbD_eq
  intro i hi
  simp only [Fields.cFunct3, Enc.mkCLW, BitVec.getLsbD_extractLsb', BitVec.getLsbD_cast, BitVec.getLsbD_append]
  interval_cases i <;> rfl

@[simp] theorem cRs1'_mkCLW (f3 : BitVec 3) (imm : BitVec 5) (rs1 r : BitVec 3) (o : BitVec 2) :
    Fields.cRs1' (mkCLW f3 imm rs1 r o) = rs1 := by
  apply BitVec.eq_of_getLsbD_eq
  intro i hi
  simp only [Fields.cRs1', Enc.mkCLW, BitVec.getLsbD_extractLsb', BitVec.getLsbD_cast, BitVec.getLsbD_append]
  interval_cases i <;> rfl

@[simp] theorem cRs2'_mkCLW (f3 : BitVec 3) (imm : BitVec 5) (rs1 r : BitVec 3) (o : BitVec 2) :
    Fields.cRs2' (mkCLW f3 imm rs1 r o) = r := by
  apply BitVec.eq_of_getLsbD_eq
  intro i hi
  simp only [Fields.cRs2', Enc.mkCLW, BitVec.getLsbD_extractLsb', BitVec.getLsbD_cast, BitVec.getLsbD_append]
  interval_cases i <;> rfl

@[simp] theorem immCLW_mkCLW (f3 : BitVec 3) (imm : BitVec 5) (rs1 r : BitVec 3) (o : BitVec 2) :
    Fields.immCLW (mkCLW f3 imm rs1 r o) = imm := by
  apply BitVec.eq_of_getLsbD_eq
  intro i hi
  simp only [Fields.immCLW, Enc.mkCLW, BitVec.getLsbD_extractLsb', BitVec.getLsbD_cast, BitVec.getLsbD_append]
  interval_cases i <;> rfl

theorem mkCLW_fields (w : Parcel) : mkCLW (Fields.cFunct3 w) (Fields.immCLW w) (Fields.cRs1' w) (Fields.cRs2' w) (Fields.op w) = w := by
  apply BitVec.eq_of_getLsbD_eq
  intro i hi
  simp only [Fields.cFunct3, Fields.cRs1', Fields.cRs2', Fields.immCLW, Fields.op, mkCLW, BitVec.getLsbD_extractLsb', BitVec.getLsbD_cast, BitVec.getLsbD_append]
  interval_cases i <;> rfl

/-! ### mkCI -/

@[simp] theorem op_mkCI (f3 : BitVec 3) (imm : BitVec 6) (rd : BitVec 5) (o : BitVec 2) :
    Fields.op (mkCI f3 imm rd o) = o := by
  apply BitVec.eq_of_getLsbD_eq
  intro i hi
  simp only [Fields.op, Enc.mkCI, BitVec.getLsbD_extractLsb', BitVec.getLsbD_cast, BitVec.getLsbD_append]
  interval_cases i <;> rfl

@[simp] theorem cFunct3_mkCI (f3 : BitVec 3) (imm : BitVec 6) (rd : BitVec 5) (o : BitVec 2) :
    Fields.cFunct3 (mkCI f3 imm rd o) = f3 := by
  apply BitVec.eq_of_getLsbD_eq
  intro i hi
  simp only [Fields.cFunct3, Enc.mkCI, BitVec.getLsbD_extractLsb', BitVec.getLsbD_cast, BitVec.getLsbD_append]
  interval_cases i <;> rfl

@[simp] theorem cRd_mkCI (f3 : BitVec 3) (imm : BitVec 6) (rd : BitVec 5) (o : BitVec 2) :
    Fields.cRd (mkCI f3 imm rd o) = rd := by
  apply BitVec.eq_of_getLsbD_eq
  intro i hi
  simp only [Fields.cRd, Enc.mkCI, BitVec.getLsbD_extractLsb', BitVec.getLsbD_cast, BitVec.getLsbD_append]
  interval_cases i <;> rfl

@[simp] theorem immCI_mkCI (f3 : BitVec 3) (imm : BitVec 6) (rd : BitVec 5) (o : BitVec 2) :
    Fields.immCI (mkCI f3 imm rd o) = imm := by
  apply BitVec.eq_of_getLsbD_eq
  intro i hi
  simp only [Fields.immCI, Enc.mkCI, BitVec.getLsbD_extractLsb', BitVec.getLsbD_cast, BitVec.getLsbD_append]
  interval_cases i <;> rfl

@[simp] theorem cBit12_mkCI (f3 : BitVec 3) (imm : BitVec 6) (rd : BitVec 5) (o : BitVec 2) :
    Fields.cBit12 (mkCI f3 imm rd o) = imm.extractLsb' 5 1 := by
  apply BitVec.eq_of_getLsbD_eq
  intro i hi
  simp only [Fields.cBit12, Enc.mkCI, BitVec.getLsbD_extractLsb', BitVec.getLsbD_cast, BitVec.getLsbD_append]
  interval_cases i; rfl

@[simp] theorem cRs2_mkCI (f3 : BitVec 3) (imm : BitVec 6) (rd : BitVec 5) (o : BitVec 2) :
    Fields.cRs2 (mkCI f3 imm rd o) = imm.extractLsb' 0 5 := by
  apply BitVec.eq_of_getLsbD_eq
  intro i hi
  simp only [Fields.cRs2, Enc.mkCI, BitVec.getLsbD_extractLsb', BitVec.getLsbD_cast, BitVec.getLsbD_append]
  interval_cases i <;> rfl

theorem mkCI_fields (w : Parcel) : mkCI (Fields.cFunct3 w) (Fields.immCI w) (Fields.cRd w) (Fields.op w) = w := by
  apply BitVec.eq_of_getLsbD_eq
  intro i hi
  simp only [Fields.cFunct3, Fields.cRd, Fields.immCI, Fields.op, mkCI, BitVec.getLsbD_extractLsb', BitVec.getLsbD_cast, BitVec.getLsbD_append]
  interval_cases i <;> rfl

/-! ### mkCI16SP -/

@[simp] theorem op_mkCI16SP (f3 : BitVec 3) (imm : BitVec 6) (rd : BitVec 5) (o : BitVec 2) :
    Fields.op (mkCI16SP f3 imm rd o) = o := by
  apply BitVec.eq_of_getLsbD_eq
  intro i hi
  simp only [Fields.op, Enc.mkCI16SP, BitVec.getLsbD_extractLsb', BitVec.getLsbD_cast, BitVec.getLsbD_append]
  interval_cases i <;> rfl

@[simp] theorem cFunct3_mkCI16SP (f3 : BitVec 3) (imm : BitVec 6) (rd : BitVec 5) (o : BitVec 2) :
    Fields.cFunct3 (mkCI16SP f3 imm rd o) = f3 := by
  apply BitVec.eq_of_getLsbD_eq
  intro i hi
  simp only [Fields.cFunct3, Enc.mkCI16SP, BitVec.getLsbD_extractLsb', BitVec.getLsbD_cast, BitVec.getLsbD_append]
  interval_cases i <;> rfl

@[simp] theorem cRd_mkCI16SP (f3 : BitVec 3) (imm : BitVec 6) (rd : BitVec 5) (o : BitVec 2) :
    Fields.cRd (mkCI16SP f3 imm rd o) = rd := by
  apply BitVec.eq_of_getLsbD_eq
  intro i hi
  simp only [Fields.cRd, Enc.mkCI16SP, BitVec.getLsbD_extractLsb', BitVec.getLsbD_cast, BitVec.getLsbD_append]
  interval_cases i <;> rfl

@[simp] theorem immCI16SP_mkCI16SP (f3 : BitVec 3) (imm : BitVec 6) (rd : BitVec 5) (o : BitVec 2) :
    Fields.immCI16SP (mkCI16SP f3 imm rd o) = imm := by
  apply BitVec.eq_of_getLsbD_eq
  intro i hi
  simp only [Fields.immCI16SP, Enc.mkCI16SP, BitVec.getLsbD_extractLsb', BitVec.getLsbD_cast, BitVec.getLsbD_append]
  interval_cases i <;> rfl

theorem mkCI16SP_fields (w : Parcel) : mkCI16SP (Fields.cFunct3 w) (Fields.immCI16SP w) (Fields.cRd w) (Fields.op w) = w := by
  apply BitVec.eq_of_getLsbD_eq
  intro i hi
  simp only [Fields.cFunct3, Fields.cRd, Fields.immCI16SP, Fields.op, mkCI16SP, BitVec.getLsbD_extractLsb', BitVec.getLsbD_cast, BitVec.getLsbD_append]
  interval_cases i <;> rfl

/-! ### mkCIDSP -/

@[simp] theorem op_mkCIDSP (f3 : BitVec 3) (imm : BitVec 6) (rd : BitVec 5) (o : BitVec 2) :
    Fields.op (mkCIDSP f3 imm rd o) = o := by
  apply BitVec.eq_of_getLsbD_eq
  intro i hi
  simp only [Fields.op, Enc.mkCIDSP, BitVec.getLsbD_extractLsb', BitVec.getLsbD_cast, BitVec.getLsbD_append]
  interval_cases i <;> rfl

@[simp] theorem cFunct3_mkCIDSP (f3 : BitVec 3) (imm : BitVec 6) (rd : BitVec 5) (o : BitVec 2) :
    Fields.cFunct3 (mkCIDSP f3 imm rd o) = f3 := by
  apply BitVec.eq_of_getLsbD_eq
  intro i hi
  simp only [Fields.cFunct3, Enc.mkCIDSP, BitVec.getLsbD_extractLsb', BitVec.getLsbD_cast, BitVec.getLsbD_append]
  interval_cases i <;> rfl

@[simp] theorem cRd_mkCIDSP (f3 : BitVec 3) (imm : BitVec 6) (rd : BitVec 5) (o : BitVec 2) :
    Fields.cRd (mkCIDSP f3 imm rd o) = rd := by
  apply BitVec.eq_of_getLsbD_eq
  intro i hi
  simp only [Fields.cRd, Enc.mkCIDSP, BitVec.getLsbD_extractLsb', BitVec.getLsbD_cast, BitVec.getLsbD_append]
  interval_cases i <;> rfl

@[simp] theorem immCIDSP_mkCIDSP (f3 : BitVec 3) (imm : BitVec 6) (rd : BitVec 5) (o : BitVec 2) :
    Fields.immCIDSP (mkCIDSP f3 imm rd o) = imm := by
  apply BitVec.eq_of_getLsbD_eq
  intro i hi
  simp only [Fields.immCIDSP, Enc.mkCIDSP, BitVec.getLsbD_extractLsb', BitVec.getLsbD_cast, BitVec.getLsbD_append]
  interval_cases i <;> rfl

theorem mkCIDSP_fields (w : Parcel) : mkCIDSP (Fields.cFunct3 w) (Fields.immCIDSP w) (Fields.cRd w) (Fields.op w) = w := by
  apply BitVec.eq_of_getLsbD_eq
  intro i hi
  simp only [Fields.cFunct3, Fields.cRd, Fields.immCIDSP, Fields.op, mkCIDSP, BitVec.getLsbD_extractLsb', BitVec.getLsbD_cast, BitVec.getLsbD_append]
  interval_cases i <;> rfl

/-! ### mkCIWSP -/

@[simp] theorem op_mkCIWSP (f3 : BitVec 3) (imm : BitVec 6) (rd : BitVec 5) (o : BitVec 2) :
    Fields.op (mkCIWSP f3 imm rd o) = o := by
  apply BitVec.eq_of_getLsbD_eq
  intro i hi
  simp only [Fields.op, Enc.mkCIWSP, BitVec.getLsbD_extractLsb', BitVec.getLsbD_cast, BitVec.getLsbD_append]
  interval_cases i <;> rfl

@[simp] theorem cFunct3_mkCIWSP (f3 : BitVec 3) (imm : BitVec 6) (rd : BitVec 5) (o : BitVec 2) :
    Fields.cFunct3 (mkCIWSP f3 imm rd o) = f3 := by
  apply BitVec.eq_of_getLsbD_eq
  intro i hi
  simp only [Fields.cFunct3, Enc.mkCIWSP, BitVec.getLsbD_extractLsb', BitVec.getLsbD_cast, BitVec.getLsbD_append]
  interval_cases i <;> rfl

@[simp] theorem cRd_mkCIWSP (f3 : BitVec 3) (imm : BitVec 6) (rd : BitVec 5) (o : BitVec 2) :
    Fields.cRd (mkCIWSP f3 imm rd o) = rd := by
  apply BitVec.eq_of_getLsbD_eq
  intro i hi
  simp only [Fields.cRd, Enc.mkCIWSP, BitVec.getLsbD_extractLsb', BitVec.getLsbD_cast, BitVec.getLsbD_append]
  interval_cases i <;> rfl

@[simp] theorem immCIWSP_mkCIWSP (f3 : BitVec 3) (imm : BitVec 6) (rd : BitVec 5) (o : BitVec 2) :
    Fields.immCIWSP (mkCIWSP f3 imm rd o) = imm := by
  apply BitVec.eq_of_getLsbD_eq
  intro i hi
  simp only [Fields.immCIWSP, Enc.mkCIWSP, BitVec.getLsbD_extractLsb', BitVec.getLsbD_cast, BitVec.getLsbD_append]
  interval_cases i <;> rfl

theorem mkCIWSP_fields (w : Parcel) : mkCIWSP (Fields.cFunct3 w) (Fields.immCIWSP w) (Fields.cRd w) (Fields.op w) = w := by
  apply BitVec.eq_of_getLsbD_eq
  intro i hi
  simp only [Fields.cFunct3, Fields.cRd, Fields.immCIWSP, Fields.op, mkCIWSP, BitVec.getLsbD_extractLsb', BitVec.getLsbD_cast, BitVec.getLsbD_append]
  interval_cases i <;> rfl

/-! ### mkCJ -/

@[simp] theorem op_mkCJ (f3 : BitVec 3) (off : BitVec 11) (o : BitVec 2) :
    Fields.op (mkCJ f3 off o) = o := by
  apply BitVec.eq_of_getLsbD_eq
  intro i hi
  simp only [Fields.op, Enc.mkCJ, BitVec.getLsbD_extractLsb', BitVec.getLsbD_cast, BitVec.getLsbD_append]
  interval_cases i <;> rfl

@[simp] theorem cFunct3_mkCJ (f3 : BitVec 3) (off : BitVec 11) (o : BitVec 2) :
    Fields.cFunct3 (mkCJ f3 off o) = f3 := by
  apply BitVec.eq_of_getLsbD_eq
  intro i hi
  simp only [Fields.cFunct3, Enc.mkCJ, BitVec.getLsbD_extractLsb', BitVec.getLsbD_cast, BitVec.getLsbD_append]
  interval_cases i <;> rfl

@[simp] theorem offCJ_mkCJ (f3 : BitVec 3) (off : BitVec 11) (o : BitVec 2) :
    Fields.offCJ (mkCJ f3 off o) = off := by
  apply BitVec.eq_of_getLsbD_eq
  intro i hi
  simp only [Fields.offCJ, Enc.mkCJ, BitVec.getLsbD_extractLsb', BitVec.getLsbD_cast, BitVec.getLsbD_append]
  interval_cases i <;> rfl

theorem mkCJ_fields (w : Parcel) : mkCJ (Fields.cFunct3 w) (Fields.offCJ w) (Fields.op w) = w := by
  apply BitVec.eq_of_getLsbD_eq
  intro i hi
  simp only [Fields.cFunct3, Fields.offCJ, Fields.op, mkCJ, BitVec.getLsbD_extractLsb', BitVec.getLsbD_cast, BitVec.getLsbD_append]
  interval_cases i <;> rfl

/-! ### mkCB -/

@[simp] theorem op_mkCB (f3 : BitVec 3) (off : BitVec 8) (rs1 : BitVec 3) (o : BitVec 2) :
    Fields.op (mkCB f3 off rs1 o) = o := by
  apply BitVec.eq_of_getLsbD_eq
  intro i hi
  simp only [Fields.op, Enc.mkCB, BitVec.getLsbD_extractLsb', BitVec.getLsbD_cast, BitVec.getLsbD_append]
  interval_cases i <;> rfl

@[simp] theorem cFunct3_mkCB (f3 : BitVec 3) (off : BitVec 8) (rs1 : BitVec 3) (o : BitVec 2) :
    Fields.cFunct3 (mkCB f3 off rs1 o) = f3 := by
  apply BitVec.eq_of_getLsbD_eq
  intro i hi
  simp only [Fields.cFunct3, Enc.mkCB, BitVec.getLsbD_extractLsb', BitVec.getLsbD_cast, BitVec.getLsbD_append]
  interval_cases i <;> rfl

@[simp] theorem cRs1'_mkCB (f3 : BitVec 3) (off : BitVec 8) (rs1 : BitVec 3) (o : BitVec 2) :
    Fields.cRs1' (mkCB f3 off rs1 o) = rs1 := by
  apply BitVec.eq_of_getLsbD_eq
  intro i hi
  simp only [Fields.cRs1', Enc.mkCB, BitVec.getLsbD_extractLsb', BitVec.getLsbD_cast, BitVec.getLsbD_append]
  interval_cases i <;> rfl

@[simp] theorem offCB_mkCB (f3 : BitVec 3) (off : BitVec 8) (rs1 : BitVec 3) (o : BitVec 2) :
    Fields.offCB (mkCB f3 off rs1 o) = off := by
  apply BitVec.eq_of_getLsbD_eq
  intro i hi
  simp only [Fields.offCB, Enc.mkCB, BitVec.getLsbD_extractLsb', BitVec.getLsbD_cast, BitVec.getLsbD_append]
  interval_cases i <;> rfl

theorem mkCB_fields (w : Parcel) : mkCB (Fields.cFunct3 w) (Fields.offCB w) (Fields.cRs1' w) (Fields.op w) = w := by
  apply BitVec.eq_of_getLsbD_eq
  intro i hi
  simp only [Fields.cFunct3, Fields.cRs1', Fields.offCB, Fields.op, mkCB, BitVec.getLsbD_extractLsb', BitVec.getLsbD_cast, BitVec.getLsbD_append]
  interval_cases i <;> rfl

/-! ### mkCBi -/

@[simp] theorem op_mkCBi (f3 : BitVec 3) (b12 : BitVec 1) (f2 : BitVec 2) (rd : BitVec 3) (low : BitVec 5) (o : BitVec 2) :
    Fields.op (mkCBi f3 b12 f2 rd low o) = o := by
  apply BitVec.eq_of_getLsbD_eq
  intro i hi
  simp only [Fields.op, Enc.mkCBi, BitVec.getLsbD_extractLsb', BitVec.getLsbD_cast, BitVec.getLsbD_append]
  interval_cases i <;> rfl

@[simp] theorem cFunct3_mkCBi (f3 : BitVec 3) (b12 : BitVec 1) (f2 : BitVec 2) (rd : BitVec 3) (low : BitVec 5) (o : BitVec 2) :
    Fields.cFunct3 (mkCBi f3 b12 f2 rd low o) = f3 := by
  apply BitVec.eq_of_getLsbD_eq
  intro i hi
  simp only [Fields.cFunct3, Enc.mkCBi, BitVec.getLsbD_extractLsb', BitVec.getLsbD_cast, BitVec.getLsbD_append]
  interval_cases i <;> rfl

@[simp] theorem cBit12_mkCBi (f3 : BitVec 3) (b12 : BitVec 1) (f2 : BitVec 2) (rd : BitVec 3) (low : BitVec 5) (o : BitVec 2) :
    Fields.cBit12 (mkCBi f3 b12 f2 rd low o) = b12 := by
  apply BitVec.eq_of_getLsbD_eq
  intro i hi
  simp only [Fields.cBit12, Enc.mkCBi, BitVec.getLsbD_extractLsb', BitVec.getLsbD_cast, BitVec.getLsbD_append]
  interval_cases i; rfl

@[simp] theorem cFunct2_mkCBi (f3 : BitVec 3) (b12 : BitVec 1) (f2 : BitVec 2) (rd : BitVec 3) (low : BitVec 5) (o : BitVec 2) :
    Fields.cFunct2 (mkCBi f3 b12 f2 rd low o) = f2 := by
  apply BitVec.eq_of_getLsbD_eq
  intro i hi
  simp only [Fields.cFunct2, Enc.mkCBi, BitVec.getLsbD_extractLsb', BitVec.getLsbD_cast, BitVec.getLsbD_append]
  interval_cases i <;> rfl

@[simp] theorem cRs1'_mkCBi (f3 : BitVec 3) (b12 : BitVec 1) (f2 : BitVec 2) (rd : BitVec 3) (low : BitVec 5) (o : BitVec 2) :
    Fields.cRs1' (mkCBi f3 b12 f2 rd low o) = rd := by
  apply BitVec.eq_of_getLsbD_eq
  intro i hi
  simp only [Fields.cRs1', Enc.mkCBi, BitVec.getLsbD_extractLsb', BitVec.getLsbD_cast, BitVec.getLsbD_append]
  interval_cases i <;> rfl

@[simp] theorem cRs2_mkCBi (f3 : BitVec 3) (b12 : BitVec 1) (f2 : BitVec 2) (rd : BitVec 3) (low : BitVec 5) (o : BitVec 2) :
    Fields.cRs2 (mkCBi f3 b12 f2 rd low o) = low := by
  apply BitVec.eq_of_getLsbD_eq
  intro i hi
  simp only [Fields.cRs2, Enc.mkCBi, BitVec.getLsbD_extractLsb', BitVec.getLsbD_cast, BitVec.getLsbD_append]
  interval_cases i <;> rfl

@[simp] theorem immCI_mkCBi (f3 : BitVec 3) (b12 : BitVec 1) (f2 : BitVec 2) (rd : BitVec 3) (low : BitVec 5) (o : BitVec 2) :
    Fields.immCI (mkCBi f3 b12 f2 rd low o) = b12 ++ low := by
  apply BitVec.eq_of_getLsbD_eq
  intro i hi
  simp only [Fields.immCI, Enc.mkCBi, BitVec.getLsbD_extractLsb', BitVec.getLsbD_cast, BitVec.getLsbD_append]
  interval_cases i <;> rfl

theorem mkCBi_fields (w : Parcel) : mkCBi (Fields.cFunct3 w) (Fields.cBit12 w) (Fields.cFunct2 w) (Fields.cRs1' w) (Fields.cRs2 w) (Fields.op w) = w := by
  apply BitVec.eq_of_getLsbD_eq
  intro i hi
  simp only [Fields.cBit12, Fields.cFunct2, Fields.cFunct3, Fields.cRs1', Fields.cRs2, Fields.op, mkCBi, BitVec.getLsbD_extractLsb', BitVec.getLsbD_cast, BitVec.getLsbD_append]
  interval_cases i <;> rfl

/-! ### mkCA -/

@[simp] theorem op_mkCA (f6 : BitVec 6) (rd : BitVec 3) (f2 : BitVec 2) (rs2 : BitVec 3) (o : BitVec 2) :
    Fields.op (mkCA f6 rd f2 rs2 o) = o := by
  apply BitVec.eq_of_getLsbD_eq
  intro i hi
  simp only [Fields.op, Enc.mkCA, BitVec.getLsbD_extractLsb', BitVec.getLsbD_cast, BitVec.getLsbD_append]
  interval_cases i <;> rfl

@[simp] theorem cFunct3_mkCA (f6 : BitVec 6) (rd : BitVec 3) (f2 : BitVec 2) (rs2 : BitVec 3) (o : BitVec 2) :
    Fields.cFunct3 (mkCA f6 rd f2 rs2 o) = f6.extractLsb' 3 3 := by
  apply BitVec.eq_of_getLsbD_eq
  intro i hi
  simp only [Fields.cFunct3, Enc.mkCA, BitVec.getLsbD_extractLsb', BitVec.getLsbD_cast, BitVec.getLsbD_append]
  interval_cases i <;> rfl

@[simp] theorem cBit12_mkCA (f6 : BitVec 6) (rd : BitVec 3) (f2 : BitVec 2) (rs2 : BitVec 3) (o : BitVec 2) :
    Fields.cBit12 (mkCA f6 rd f2 rs2 o) = f6.extractLsb' 2 1 := by
  apply BitVec.eq_of_getLsbD_eq
  intro i hi
  simp only [Fields.cBit12, Enc.mkCA, BitVec.getLsbD_extractLsb', BitVec.getLsbD_cast, BitVec.getLsbD_append]
  interval_cases i; rfl

@[simp] theorem cFunct2_mkCA (f6 : BitVec 6) (rd : BitVec 3) (f2 : BitVec 2) (rs2 : BitVec 3) (o : BitVec 2) :
    Fields.cFunct2 (mkCA f6 rd f2 rs2 o) = f6.extractLsb' 0 2 := by
  apply BitVec.eq_of_getLsbD_eq
  intro i hi
  simp only [Fields.cFunct2, Enc.mkCA, BitVec.getLsbD_extractLsb', BitVec.getLsbD_cast, BitVec.getLsbD_append]
  interval_cases i <;> rfl

@[simp] theorem cRs1'_mkCA (f6 : BitVec 6) (rd : BitVec 3) (f2 : BitVec 2) (rs2 : BitVec 3) (o : BitVec 2) :
    Fields.cRs1' (mkCA f6 rd f2 rs2 o) = rd := by
  apply BitVec.eq_of_getLsbD_eq
  intro i hi
  simp only [Fields.cRs1', Enc.mkCA, BitVec.getLsbD_extractLsb', BitVec.getLsbD_cast, BitVec.getLsbD_append]
  interval_cases i <;> rfl

@[simp] theorem cFunct2a_mkCA (f6 : BitVec 6) (rd : BitVec 3) (f2 : BitVec 2) (rs2 : BitVec 3) (o : BitVec 2) :
    Fields.cFunct2a (mkCA f6 rd f2 rs2 o) = f2 := by
  apply BitVec.eq_of_getLsbD_eq
  intro i hi
  simp only [Fields.cFunct2a, Enc.mkCA, BitVec.getLsbD_extractLsb', BitVec.getLsbD_cast, BitVec.getLsbD_append]
  interval_cases i <;> rfl

@[simp] theorem cRs2'_mkCA (f6 : BitVec 6) (rd : BitVec 3) (f2 : BitVec 2) (rs2 : BitVec 3) (o : BitVec 2) :
    Fields.cRs2' (mkCA f6 rd f2 rs2 o) = rs2 := by
  apply BitVec.eq_of_getLsbD_eq
  intro i hi
  simp only [Fields.cRs2', Enc.mkCA, BitVec.getLsbD_extractLsb', BitVec.getLsbD_cast, BitVec.getLsbD_append]
  interval_cases i <;> rfl

/-! ### mkCR -/

@[simp] theorem op_mkCR (f4 : BitVec 4) (rd rs2 : BitVec 5) (o : BitVec 2) :
    Fields.op (mkCR f4 rd rs2 o) = o := by
  apply BitVec.eq_of_getLsbD_eq
  intro i hi
  simp only [Fields.op, Enc.mkCR, BitVec.getLsbD_extractLsb', BitVec.getLsbD_cast, BitVec.getLsbD_append]
  interval_cases i <;> rfl

@[simp] theorem cFunct3_mkCR (f4 : BitVec 4) (rd rs2 : BitVec 5) (o : BitVec 2) :
    Fields.cFunct3 (mkCR f4 rd rs2 o) = f4.extractLsb' 1 3 := by
  apply BitVec.eq_of_getLsbD_eq
  intro i hi
  simp only [Fields.cFunct3, Enc.mkCR, BitVec.getLsbD_extractLsb', BitVec.getLsbD_cast, BitVec.getLsbD_append]
  interval_cases i <;> rfl

@[simp] theorem cBit12_mkCR (f4 : BitVec 4) (rd rs2 : BitVec 5) (o : BitVec 2) :
    Fields.cBit12 (mkCR f4 rd rs2 o) = f4.extractLsb' 0 1 := by
  apply BitVec.eq_of_getLsbD_eq
  intro i hi
  simp only [Fields.cBit12, Enc.mkCR, BitVec.getLsbD_extractLsb', BitVec.getLsbD_cast, BitVec.getLsbD_append]
  interval_cases i; rfl

@[simp] theorem cRd_mkCR (f4 : BitVec 4) (rd rs2 : BitVec 5) (o : BitVec 2) :
    Fields.cRd (mkCR f4 rd rs2 o) = rd := by
  apply BitVec.eq_of_getLsbD_eq
  intro i hi
  simp only [Fields.cRd, Enc.mkCR, BitVec.getLsbD_extractLsb', BitVec.getLsbD_cast, BitVec.getLsbD_append]
  interval_cases i <;> rfl

@[simp] theorem cRs2_mkCR (f4 : BitVec 4) (rd rs2 : BitVec 5) (o : BitVec 2) :
    Fields.cRs2 (mkCR f4 rd rs2 o) = rs2 := by
  apply BitVec.eq_of_getLsbD_eq
  intro i hi
  simp only [Fields.cRs2, Enc.mkCR, BitVec.getLsbD_extractLsb', BitVec.getLsbD_cast, BitVec.getLsbD_append]
  interval_cases i <;> rfl

theorem mkCR_fields (w : Parcel) : mkCR (Fields.cFunct4 w) (Fields.cRd w) (Fields.cRs2 w) (Fields.op w) = w := by
  apply BitVec.eq_of_getLsbD_eq
  intro i hi
  simp only [Fields.cFunct4, Fields.cRd, Fields.cRs2, Fields.op, mkCR, BitVec.getLsbD_extractLsb', BitVec.getLsbD_cast, BitVec.getLsbD_append]
  interval_cases i <;> rfl

/-! ### mkCSSD -/

@[simp] theorem op_mkCSSD (f3 : BitVec 3) (imm : BitVec 6) (rs2 : BitVec 5) (o : BitVec 2) :
    Fields.op (mkCSSD f3 imm rs2 o) = o := by
  apply BitVec.eq_of_getLsbD_eq
  intro i hi
  simp only [Fields.op, Enc.mkCSSD, BitVec.getLsbD_extractLsb', BitVec.getLsbD_cast, BitVec.getLsbD_append]
  interval_cases i <;> rfl

@[simp] theorem cFunct3_mkCSSD (f3 : BitVec 3) (imm : BitVec 6) (rs2 : BitVec 5) (o : BitVec 2) :
    Fields.cFunct3 (mkCSSD f3 imm rs2 o) = f3 := by
  apply BitVec.eq_of_getLsbD_eq
  intro i hi
  simp only [Fields.cFunct3, Enc.mkCSSD, BitVec.getLsbD_extractLsb', BitVec.getLsbD_cast, BitVec.getLsbD_append]
  interval_cases i <;> rfl

@[simp] theorem cRs2_mkCSSD (f3 : BitVec 3) (imm : BitVec 6) (rs2 : BitVec 5) (o : BitVec 2) :
    Fields.cRs2 (mkCSSD f3 imm rs2 o) = rs2 := by
  apply BitVec.eq_of_getLsbD_eq
  intro i hi
  simp only [Fields.cRs2, Enc.mkCSSD, BitVec.getLsbD_extractLsb', BitVec.getLsbD_cast, BitVec.getLsbD_append]
  interval_cases i <;> rfl

@[simp] theorem immCSSD_mkCSSD (f3 : BitVec 3) (imm : BitVec 6) (rs2 : BitVec 5) (o : BitVec 2) :
    Fields.immCSSD (mkCSSD f3 imm rs2 o) = imm := by
  apply BitVec.eq_of_getLsbD_eq
  intro i hi
  simp only [Fields.immCSSD, Enc.mkCSSD, BitVec.getLsbD_extractLsb', BitVec.getLsbD_cast, BitVec.getLsbD_append]
  interval_cases i <;> rfl

theorem mkCSSD_fields (w : Parcel) : mkCSSD (Fields.cFunct3 w) (Fields.immCSSD w) (Fields.cRs2 w) (Fields.op w) = w := by
  apply BitVec.eq_of_getLsbD_eq
  intro i hi
  simp only [Fields.cFunct3, Fields.cRs2, Fields.immCSSD, Fields.op, mkCSSD, BitVec.getLsbD_extractLsb', BitVec.getLsbD_cast, BitVec.getLsbD_append]
  interval_cases i <;> rfl

/-! ### mkCSSW -/

@[simp] theorem op_mkCSSW (f3 : BitVec 3) (imm : BitVec 6) (rs2 : BitVec 5) (o : BitVec 2) :
    Fields.op (mkCSSW f3 imm rs2 o) = o := by
  apply BitVec.eq_of_getLsbD_eq
  intro i hi
  simp only [Fields.op, Enc.mkCSSW, BitVec.getLsbD_extractLsb', BitVec.getLsbD_cast, BitVec.getLsbD_append]
  interval_cases i <;> rfl

@[simp] theorem cFunct3_mkCSSW (f3 : BitVec 3) (imm : BitVec 6) (rs2 : BitVec 5) (o : BitVec 2) :
    Fields.cFunct3 (mkCSSW f3 imm rs2 o) = f3 := by
  apply BitVec.eq_of_getLsbD_eq
  intro i hi
  simp only [Fields.cFunct3, Enc.mkCSSW, BitVec.getLsbD_extractLsb', BitVec.getLsbD_cast, BitVec.getLsbD_append]
  interval_cases i <;> rfl

@[simp] theorem cRs2_mkCSSW (f3 : BitVec 3) (imm : BitVec 6) (rs2 : BitVec 5) (o : BitVec 2) :
    Fields.cRs2 (mkCSSW f3 imm rs2 o) = rs2 := by
  apply BitVec.eq_of_getLsbD_eq
  intro i hi
  simp only [Fields.cRs2, Enc.mkCSSW, BitVec.getLsbD_extractLsb', BitVec.getLsbD_cast, BitVec.getLsbD_append]
  interval_cases i <;> rfl

@[simp] theorem immCSSW_mkCSSW (f3 : BitVec 3) (imm : BitVec 6) (rs2 : BitVec 5) (o : BitVec 2) :
    Fields.immCSSW (mkCSSW f3 imm rs2 o) = imm := by
  apply BitVec.eq_of_getLsbD_eq
  intro i hi
  simp only [Fields.immCSSW, Enc.mkCSSW, BitVec.getLsbD_extractLsb', BitVec.getLsbD_cast, BitVec.getLsbD_append]
  interval_cases i <;> rfl

theorem mkCSSW_fields (w : Parcel) : mkCSSW (Fields.cFunct3 w) (Fields.immCSSW w) (Fields.cRs2 w) (Fields.op w) = w := by
  apply BitVec.eq_of_getLsbD_eq
  intro i hi
  simp only [Fields.cFunct3, Fields.cRs2, Fields.immCSSW, Fields.op, mkCSSW, BitVec.getLsbD_extractLsb', BitVec.getLsbD_cast, BitVec.getLsbD_append]
  interval_cases i <;> rfl

/-! ### The bytes of an encoding, put together again (R82, R121) -/

/-- The four bytes of a word. -/
@[simp] theorem word_of_bytes (w : Word) :
    w.extractLsb' 24 8 ++ w.extractLsb' 16 8 ++ w.extractLsb' 8 8 ++ w.extractLsb' 0 8 = w := by
  apply BitVec.eq_of_getLsbD_eq
  intro i hi
  simp only [BitVec.getLsbD_extractLsb', BitVec.getLsbD_append]
  interval_cases i <;> rfl

/-- The two bytes of a parcel. -/
@[simp] theorem parcel_of_bytes (p : Parcel) : p.extractLsb' 8 8 ++ p.extractLsb' 0 8 = p := by
  apply BitVec.eq_of_getLsbD_eq
  intro i hi
  simp only [BitVec.getLsbD_extractLsb', BitVec.getLsbD_append]
  interval_cases i <;> rfl

/-- Bits [1:0] of a word's first parcel are those of its opcode (R120). -/
theorem op_of_word (w : Word) :
    Fields.op (w.extractLsb' 8 8 ++ w.extractLsb' 0 8) = (Fields.opcode w).extractLsb' 0 2 := by
  apply BitVec.eq_of_getLsbD_eq
  intro i hi
  simp only [Fields.op, Fields.opcode, BitVec.getLsbD_extractLsb', BitVec.getLsbD_append]
  interval_cases i <;> rfl

/-- A 32-bit word that decodes does so from its bytes. -/
theorem decode_word_bytes (w : Word) (rest : List Byte) (h : (Fields.opcode w).extractLsb' 0 2 = 0b11#2) {i : Instr}
    (hi : decode32 w = .ok i) : decode ((Encoded.word w).bytes ++ rest) = .ok (i, rest) := by
  simp [decode, Encoded.bytes, op_of_word, h, hi]

/-- A parcel that decodes does so from its bytes. -/
theorem decode_half_bytes (p : Parcel) (rest : List Byte) (h : Fields.op p ≠ 0b11#2) {i : Instr}
    (hi : decode16 p = .ok i) : decode ((Encoded.half p).bytes ++ rest) = .ok (i, rest) := by
  simp [decode, Encoded.bytes, h, hi]

@[simp] theorem decodeRm_bits (rm : Rm) : decodeRm rm.bits = .ok rm := by
  cases rm with
  | mode m => cases m <;> rfl
  | dyn => rfl

end Sys2Proof
end

