-- ==== Sys2Proof/Laws/State.lean ====
section
/-! SUPPORT. One lemma per field per update of the state, so that no proof unfolds a record update. -/
namespace Sys2Proof.Machine

/-! ### The environment -/

variable (e : Env) (q : Request) (a v : Word) (be : BitVec 4) (n : BitVec 12)

@[simp] theorem Env.issue_mem : (e.issue q).mem = e.mem := rfl
@[simp] theorem Env.issue_reservation : (e.issue q).reservation = e.reservation := rfl
@[simp] theorem Env.issue_gates : (e.issue q).gates = e.gates := rfl
@[simp] theorem Env.issue_sqrtModes : (e.issue q).sqrtModes = e.sqrtModes := rfl
@[simp] theorem Env.issue_csrs : (e.issue q).csrs = e.csrs := rfl
@[simp] theorem Env.issue_onTrap : (e.issue q).onTrap = e.onTrap := rfl
@[simp] theorem Env.issue_replies : (e.issue q).replies = e.replies.tail := rfl
@[simp] theorem Env.issue_requests : (e.issue q).requests = e.requests ++ [q] := rfl

@[simp] theorem Env.invalidate_mem : (e.invalidate a).mem = e.mem := by unfold Env.invalidate; split <;> rfl
@[simp] theorem Env.invalidate_reservation :
    (e.invalidate a).reservation = if e.reservation = some a then none else e.reservation := by
  unfold Env.invalidate; split <;> simp_all
@[simp] theorem Env.invalidate_gates : (e.invalidate a).gates = e.gates := by unfold Env.invalidate; split <;> rfl
@[simp] theorem Env.invalidate_sqrtModes : (e.invalidate a).sqrtModes = e.sqrtModes := by
  unfold Env.invalidate; split <;> rfl
@[simp] theorem Env.invalidate_csrs : (e.invalidate a).csrs = e.csrs := by unfold Env.invalidate; split <;> rfl
@[simp] theorem Env.invalidate_onTrap : (e.invalidate a).onTrap = e.onTrap := by unfold Env.invalidate; split <;> rfl
@[simp] theorem Env.invalidate_replies : (e.invalidate a).replies = e.replies := by unfold Env.invalidate; split <;> rfl
@[simp] theorem Env.invalidate_requests : (e.invalidate a).requests = e.requests := by
  unfold Env.invalidate; split <;> rfl

@[simp] theorem Env.store_mem : (e.store a v be).mem = e.mem.writeWord a v be := rfl
@[simp] theorem Env.store_reservation :
    (e.store a v be).reservation = if e.reservation = some a then none else e.reservation := by simp [Env.store]
@[simp] theorem Env.store_gates : (e.store a v be).gates = e.gates := by simp [Env.store]
@[simp] theorem Env.store_sqrtModes : (e.store a v be).sqrtModes = e.sqrtModes := by simp [Env.store]
@[simp] theorem Env.store_csrs : (e.store a v be).csrs = e.csrs := by simp [Env.store]
@[simp] theorem Env.store_onTrap : (e.store a v be).onTrap = e.onTrap := by simp [Env.store]
@[simp] theorem Env.store_replies : (e.store a v be).replies = e.replies := by simp [Env.store]
@[simp] theorem Env.store_requests : (e.store a v be).requests = e.requests := by simp [Env.store]

@[simp] theorem Env.setCsr_mem : (e.setCsr n v).mem = e.mem := rfl
@[simp] theorem Env.setCsr_reservation : (e.setCsr n v).reservation = e.reservation := rfl
@[simp] theorem Env.setCsr_gates : (e.setCsr n v).gates = e.gates := rfl
@[simp] theorem Env.setCsr_sqrtModes : (e.setCsr n v).sqrtModes = e.sqrtModes := rfl
@[simp] theorem Env.setCsr_csrs : (e.setCsr n v).csrs = Store.write e.csrs n.toNat v := rfl
@[simp] theorem Env.setCsr_onTrap : (e.setCsr n v).onTrap = e.onTrap := rfl
@[simp] theorem Env.setCsr_replies : (e.setCsr n v).replies = e.replies := rfl
@[simp] theorem Env.setCsr_requests : (e.setCsr n v).requests = e.requests := rfl

/-! ### The core -/

variable (c : Cpu) (r : XReg) (fr : FReg) (p : BitVec 128)

@[simp] theorem Cpu.writeX_pc : (c.writeX r v).pc = c.pc := by unfold Cpu.writeX; split <;> rfl
@[simp] theorem Cpu.writeX_fcsr : (c.writeX r v).fcsr = c.fcsr := by unfold Cpu.writeX; split <;> rfl
@[simp] theorem Cpu.writeX_f : (c.writeX r v).f = c.f := by unfold Cpu.writeX; split <;> rfl
@[simp] theorem Cpu.writeX_readF : (c.writeX r v).readF fr = c.readF fr := by simp [Cpu.readF]
@[simp] theorem Cpu.writeF_x : (c.writeF fr p).x = c.x := rfl
@[simp] theorem Cpu.writeF_pc : (c.writeF fr p).pc = c.pc := rfl
@[simp] theorem Cpu.writeF_fcsr : (c.writeF fr p).fcsr = c.fcsr := rfl
@[simp] theorem Cpu.writeF_readX : (c.writeF fr p).readX r = c.readX r := rfl

/-- A write to x0 is dropped (R41). -/
@[simp] theorem Cpu.writeX_zero : c.writeX 0#5 v = c := by simp [Cpu.writeX]

/-- x0 reads as zero (R41). -/
@[simp] theorem Cpu.readX_zero : c.readX 0#5 = 0#32 := by simp [Cpu.readX]

/-- Reading after a write: the written value at that register, unless it is x0 (R40, R41). -/
theorem Cpu.readX_writeX (r' : XReg) : (c.writeX r v).readX r' = if r' = r ∧ r ≠ 0#5 then v else c.readX r' := by
  have pos {z : XReg} (h : z ≠ 0#5) : z.toNat ≠ 0 := fun hz => h (BitVec.eq_of_toNat_eq (by simpa using hz))
  by_cases hr : r = 0#5
  · subst hr; simp
  · by_cases h : r' = r
    · subst h; simp [Cpu.readX, Cpu.writeX, hr]
    · by_cases h0 : r' = 0#5
      · subst h0; simp [h]
      · have hne : r.toNat - 1 ≠ r'.toNat - 1 := fun he =>
          h (BitVec.eq_of_toNat_eq (by have := pos hr; have := pos h0; omega))
        simp [Cpu.readX, Cpu.writeX, hr, h, h0, Vector.getElem_set_ne, hne]

/-- Reading an f register after a write (R49). -/
theorem Cpu.readF_writeF (r' : FReg) : (c.writeF fr p).readF r' = if r' = fr then p else c.readF r' := by
  by_cases h : r' = fr
  · subst h; simp [Cpu.readF, Cpu.writeF]
  · have : fr.toNat ≠ r'.toNat := fun z => h (BitVec.eq_of_toNat_eq z.symm)
    simp [Cpu.readF, Cpu.writeF, h, Vector.getElem_set_ne, this]

@[simp] theorem accrue_noFlags (b : BitVec 8) : accrue b noFlags = b := by simp [accrue, noFlags]

/-! ### A commit, field by field -/

variable (len : Nat) (w : Writes) (s : State) (t : Trap)

@[simp] theorem Cpu.apply_pc : (c.apply len w).pc = w.pc.getD (c.pc + BitVec.ofNat 32 len) := rfl
@[simp] theorem Cpu.apply_fcsr : (c.apply len w).fcsr = accrue (w.fcsr.getD c.fcsr) w.flags := rfl

theorem Cpu.apply_readX :
    (c.apply len w).readX r =
      match w.x with
      | some (rd, v) => if r = rd ∧ rd ≠ 0#5 then v else c.readX r
      | none => c.readX r := by
  cases hx : w.x with
  | none => cases hf : w.f <;> simp [Cpu.apply, hx, hf, Cpu.readX, Cpu.writeF]
  | some p =>
    have := Cpu.readX_writeX p.2 c p.1 r
    cases hf : w.f <;> simp_all [Cpu.apply, Cpu.readX, Cpu.writeF]

theorem Cpu.apply_readF :
    (c.apply len w).readF fr =
      match w.f with
      | some (fd, v) => if fr = fd then v else c.readF fr
      | none => c.readF fr := by
  cases hf : w.f with
  | none => cases hx : w.x <;> simp [Cpu.apply, hx, hf, Cpu.readF]
  | some p =>
    cases hx : w.x with
    | none =>
      have := Cpu.readF_writeF c p.1 p.2 fr
      simp_all [Cpu.apply, Cpu.readF]
    | some q =>
      have := Cpu.readF_writeF (c.writeX q.1 q.2) p.1 p.2 fr
      simp_all [Cpu.apply, Cpu.readF]

@[simp] theorem commit_cfg : (commit len w s).cfg = s.cfg := rfl
@[simp] theorem commit_cpu : (commit len w s).cpu = s.cpu.apply len w := rfl
@[simp] theorem commit_env : (commit len w s).env = s.env := rfl
@[simp] theorem commit_schedule : (commit len w s).schedule = s.schedule := rfl
@[simp] theorem commit_outcome : (commit len w s).outcome = some .advanced := rfl

/-! ### A trap's delivery, field by field -/

@[simp] theorem deliver_cfg : (deliver t s).cfg = s.cfg := rfl
@[simp] theorem deliver_cpu : (deliver t s).cpu = s.cpu := rfl
@[simp] theorem deliver_env : (deliver t s).env = s.env.issue (.trap t) := rfl
@[simp] theorem deliver_schedule : (deliver t s).schedule = s.schedule := rfl
@[simp] theorem deliver_outcome : (deliver t s).outcome = some (outcomeOf t s.env.trapAnswer) := rfl

/-! ### A CPU image, field by field -/

variable (image : CpuImage)

@[simp] theorem State.image_flen : s.image.flen = s.cfg.flen := rfl
@[simp] theorem State.image_x : s.image.x = s.cpu.x := rfl
@[simp] theorem State.image_pc : s.image.pc = s.cpu.pc := rfl
@[simp] theorem State.image_fcsr : s.image.fcsr = s.cpu.fcsr := rfl
@[simp] theorem State.image_f : s.image.f = s.cpu.f.map (·.setWidth s.cfg.flen.bits) := rfl
@[simp] theorem CpuImage.toCpu_x : image.toCpu.x = image.x := rfl
@[simp] theorem CpuImage.toCpu_pc : image.toCpu.pc = image.pc := rfl
@[simp] theorem CpuImage.toCpu_fcsr : image.toCpu.fcsr = image.fcsr := rfl
@[simp] theorem CpuImage.toCpu_f (i : Fin 32) : image.toCpu.f[i] = (image.f[i]).setWidth 128 := by
  simp [CpuImage.toCpu]

/-- A restore changes the core at most: to what the image holds where the FLENs agree, not at all otherwise (R59, R802). -/
theorem restoreImage_eq :
    restoreImage image s = { s with cpu := if image.flen = s.cfg.flen then image.toCpu else s.cpu } := by
  unfold restoreImage; split <;> rfl

@[simp] theorem restoreImage_cpu :
    (restoreImage image s).cpu = if image.flen = s.cfg.flen then image.toCpu else s.cpu := by rw [restoreImage_eq]
@[simp] theorem restoreImage_cfg : (restoreImage image s).cfg = s.cfg := by rw [restoreImage_eq]
@[simp] theorem restoreImage_env : (restoreImage image s).env = s.env := by rw [restoreImage_eq]
@[simp] theorem restoreImage_schedule : (restoreImage image s).schedule = s.schedule := by rw [restoreImage_eq]
@[simp] theorem restoreImage_outcome : (restoreImage image s).outcome = s.outcome := by rw [restoreImage_eq]

end Sys2Proof.Machine
end

