-- ==== Sys2Proof/Laws/Ops.lean ====
section
/-! SUPPORT. What each shared operation can do, said once: the two ends of a request, and the changes of the environment
that any sequence of requests can make. -/
namespace Sys2Proof.Machine

/-! ### Attempts -/

@[simp] theorem Attempt.andThen_ok {α β : Type} (v : α) (e : Env) (k : α → Env → Attempt β) :
    (Attempt.ok v e).andThen k = k v e := rfl

@[simp] theorem Attempt.andThen_trap {α β : Type} (t : Trap) (e : Env) (k : α → Env → Attempt β) :
    (Attempt.trap t e).andThen k = .trap t e := rfl

/-- A sequence succeeds only through its first part. -/
theorem Attempt.andThen_eq_ok {α β : Type} {a : Attempt α} {k : α → Env → Attempt β} {v : β} {e : Env}
    (h : a.andThen k = .ok v e) : ∃ u e', a = .ok u e' ∧ k u e' = .ok v e := by
  cases a with
  | ok u e' => exact ⟨u, e', rfl, h⟩
  | trap t e' => cases h

/-- A sequence traps in its first part or in its second. -/
theorem Attempt.andThen_eq_trap {α β : Type} {a : Attempt α} {k : α → Env → Attempt β} {t : Trap} {e : Env}
    (h : a.andThen k = .trap t e) : a = .trap t e ∨ ∃ u e', a = .ok u e' ∧ k u e' = .trap t e := by
  cases a with
  | ok u e' => exact .inr ⟨u, e', rfl, h⟩
  | trap t' e' => exact .inl (by simpa using h)

/-! ### Requests -/

/-- A request whose answer is an `EnvTrap(t)` raises `Env(t)`, the request logged and nothing else changed (R10, R20). -/
theorem request_envTrap {α : Type} {q : Request} {k : Reply → Env → Attempt α} {e : Env} {t : Nat}
    (h : e.nextReply = .envTrap t) : request q k e = .trap (.env t) (e.issue q) := by simp [request, h]

/-- Any other answer goes on. -/
theorem request_ok {α : Type} {q : Request} {k : Reply → Env → Attempt α} {e : Env}
    (h : ∀ t, e.nextReply ≠ .envTrap t) : request q k e = k e.nextReply (e.issue q) := by
  unfold request
  split
  · exact absurd ‹_› (h _)
  · rfl

/-- The two ends of a request. -/
theorem request_cases {α : Type} (q : Request) (k : Reply → Env → Attempt α) (e : Env) :
    (∃ t, e.nextReply = .envTrap t ∧ request q k e = .trap (.env t) (e.issue q)) ∨
      ((∀ t, e.nextReply ≠ .envTrap t) ∧ request q k e = k e.nextReply (e.issue q)) := by
  by_cases h : ∃ t, e.nextReply = .envTrap t
  · obtain ⟨t, ht⟩ := h
    exact .inl ⟨t, ht, request_envTrap ht⟩
  · simp only [not_exists] at h
    exact .inr ⟨h, request_ok h⟩

/-! ### What requests can do to the environment -/

/-- A request an instruction makes itself; the driver makes the others (R701). -/
def Request.ofInstr : Request → Bool
  | .charge _ | .trap _ => false
  | .readWord _ | .writeWord _ _ _ | .loadReserved _ | .storeReserved _ _ | .csrRead _ _ | .csrWrite _ _ _
  | .sqrtMode _ => true

/-- A request the front end makes (R701 lines 1 to 6). -/
def Request.ofFrontEnd : Request → Bool
  | .charge _ | .readWord _ => true
  | .writeWord _ _ _ | .loadReserved _ | .storeReserved _ _ | .csrRead _ _ | .csrWrite _ _ _ | .sqrtMode _
  | .trap _ => false

/-- `e'` is `e` after some requests, each of which `P` allows, and what the environment did to answer them. None of them
was refused, or, where the index is `some n`, the last one was, with `EnvTrap(n)`, and nothing came after it (R10, R709). -/
inductive Env.Reach (P : Request → Bool) (e : Env) : Option Nat → Env → Prop
  | refl : Env.Reach P e none e
  | issue {e' : Env} (h : Env.Reach P e none e') (q : Request) (hq : P q = true)
      (hr : q.canFail = true → ∀ n, e'.nextReply ≠ .envTrap n) : Env.Reach P e none (e'.issue q)
  | refused {e' : Env} (h : Env.Reach P e none e') (q : Request) (hq : P q = true) (hc : q.canFail = true) (n : Nat)
      (hr : e'.nextReply = .envTrap n) : Env.Reach P e (some n) (e'.issue q)
  | store {e' : Env} (h : Env.Reach P e none e') (a v : Word) (be : BitVec 4) : Env.Reach P e none (e'.store a v be)
  | reserve {e' : Env} (h : Env.Reach P e none e') (a : Word) (ha : wordAddr a = a) :
      Env.Reach P e none { e' with reservation := some a }
  | release {e' : Env} (h : Env.Reach P e none e') : Env.Reach P e none { e' with reservation := none }
  | setCsr {e' : Env} (h : Env.Reach P e none e') (n : BitVec 12) (v : Word) : Env.Reach P e none (e'.setCsr n v)

variable {P : Request → Bool}

theorem Env.Reach.trans {e e' e'' : Env} {o : Option Nat} (h : Env.Reach P e none e') (h' : Env.Reach P e' o e'') :
    Env.Reach P e o e'' := by
  induction h' with
  | refl => exact h
  | issue _ q hq hr ih => exact ih.issue q hq hr
  | refused _ q hq hc n hr ih => exact ih.refused q hq hc n hr
  | store _ a v be ih => exact ih.store a v be
  | reserve _ a ha ih => exact ih.reserve a ha
  | release _ ih => exact ih.release
  | setCsr _ n v ih => exact ih.setCsr n v

/-- The core changes no gate and no usual answer of the environment (R57, R702). -/
theorem Env.Reach.answers {e e' : Env} {o : Option Nat} (h : Env.Reach P e o e') :
    e'.gates = e.gates ∧ e'.sqrtModes = e.sqrtModes ∧ e'.onTrap = e.onTrap := by
  induction h with
  | refl => exact ⟨rfl, rfl, rfl⟩
  | issue _ _ _ _ ih => simpa using ih
  | refused _ _ _ _ _ _ ih => simpa using ih
  | store _ _ _ _ ih => simpa using ih
  | reserve _ _ _ ih => simpa using ih
  | release _ ih => simpa using ih
  | setCsr _ _ _ ih => simpa using ih

/-- Requests are only added to the log, in order, and only allowed ones (R92); each uses up one scripted answer; and one
that can fail was answered `EnvTrap(n)` exactly when it is the last and the sequence was stopped with `n`. -/
theorem Env.Reach.requests {e e' : Env} {o : Option Nat} (h : Env.Reach P e o e') :
    ∃ l, e'.requests = e.requests ++ l ∧ (∀ q ∈ l, P q = true) ∧ e'.replies = e.replies.drop l.length ∧
      (∀ k q n, l[k]? = some q → q.canFail = true → e.reply k = .envTrap n → o = some n ∧ l.length = k + 1) ∧
      ∀ n, o = some n → ∃ k q, l[k]? = some q ∧ q.canFail = true ∧ e.reply k = .envTrap n := by
  have next : ∀ {e1 : Env} {l : List Request}, e1.replies = e.replies.drop l.length →
      e1.nextReply = e.reply l.length := fun h => by
    rw [Env.nextReply, h, Env.reply, List.headD_eq_head?_getD, List.head?_drop, List.getD_eq_getElem?_getD]
  have log : ∀ {e1 : Env} {l : List Request} (q : Request), e1.requests = e.requests ++ l →
      (e1.issue q).requests = e.requests ++ (l ++ [q]) := fun q h => by simp [h]
  have used : ∀ {e1 : Env} {l : List Request} (q : Request), e1.replies = e.replies.drop l.length →
      (e1.issue q).replies = e.replies.drop (l ++ [q]).length := fun q h => by simp [h, List.tail_drop]
  have allowed : ∀ {l : List Request} {q : Request}, (∀ q ∈ l, P q = true) → P q = true →
      ∀ q' ∈ l ++ [q], P q' = true := fun h hq q' hq' => by
    rcases List.mem_append.1 hq' with h' | h'
    · exact h q' h'
    · simp at h'; exact h' ▸ hq
  have last : ∀ {l : List Request} {q q' : Request} {k : Nat}, (l ++ [q])[k]? = some q' →
      l[k]? = some q' ∨ k = l.length ∧ q' = q := fun {l q q' k} h => by
    rcases Nat.lt_trichotomy k l.length with hk | hk | hk
    · exact .inl (by rwa [List.getElem?_append_left hk] at h)
    · subst hk; simp at h; exact .inr ⟨rfl, h.symm⟩
    · rw [List.getElem?_eq_none (by simp; omega)] at h; cases h
  induction h with
  | refl => exact ⟨[], by simp⟩
  | issue _ q hq hr ih =>
    obtain ⟨l, hl, hp, hu, hn, -⟩ := ih
    refine ⟨l ++ [q], log q hl, allowed hp hq, used q hu, fun k q' n hk hc ht => ?_, by simp⟩
    rcases last hk with hk | ⟨rfl, rfl⟩
    · cases (hn k q' n hk hc ht).1
    · exact absurd ((next hu).trans ht) (hr hc n)
  | refused _ q hq hc n hr ih =>
    obtain ⟨l, hl, hp, hu, hn, -⟩ := ih
    refine ⟨l ++ [q], log q hl, allowed hp hq, used q hu, fun k q' n' hk hc' ht => ?_, fun n' hn' => ?_⟩
    · rcases last hk with hk | ⟨rfl, rfl⟩
      · cases (hn k q' n' hk hc' ht).1
      · rw [← next hu, hr] at ht
        cases ht
        exact ⟨rfl, by simp⟩
    · cases hn'
      exact ⟨l.length, q, by simp, hc, (next hu).symm.trans hr⟩
  | store _ _ _ _ ih => simpa using ih
  | reserve _ _ _ ih => simpa using ih
  | release _ ih => simpa using ih
  | setCsr _ _ _ ih => simpa using ih

/-- The environment's value a trap carries. -/
def Trap.refusal : Trap → Option Nat
  | .core _ _ => none
  | .env n => some n

/-- The attempt leaves an environment that its requests reach from `e`: on success none was refused, and a trap is the
core's own or the refusal of the last request. -/
def Attempt.Reaches {α : Type} (P : Request → Bool) (e : Env) : Attempt α → Prop
  | .ok _ e' => Env.Reach P e none e'
  | .trap t e' => Env.Reach P e t.refusal e'

theorem Attempt.Reaches.ok {α : Type} (v : α) (e : Env) : (Attempt.ok v e).Reaches P e := Env.Reach.refl

theorem raise_reaches {α : Type} (c : Cause) (info : Word) (e : Env) : (raise (α := α) c info e).Reaches P e :=
  Env.Reach.refl

theorem orIllegal_reaches {α : Type} (inst : Word) (o : Option α) (e : Env) : (orIllegal inst o e).Reaches P e := by
  cases o <;> exact Env.Reach.refl

/-- The environment an attempt ends with. -/
def Attempt.env {α : Type} : Attempt α → Env
  | .ok _ e => e
  | .trap _ e => e

/-- The environment's value an attempt was stopped with. -/
def Attempt.refusal {α : Type} : Attempt α → Option Nat
  | .ok _ _ => none
  | .trap t _ => t.refusal

theorem Attempt.Reaches.reach {α : Type} {e : Env} {a : Attempt α} (h : a.Reaches P e) :
    Env.Reach P e a.refusal a.env := by
  cases a <;> exact h

/-- What follows what was reached without a refusal. -/
theorem Attempt.Reaches.after {α : Type} {e e' : Env} {a : Attempt α} (h : Env.Reach P e none e')
    (ha : a.Reaches P e') : a.Reaches P e := by
  cases a <;> exact h.trans ha

theorem Attempt.Reaches.andThen {α β : Type} {a : Attempt α} {k : α → Env → Attempt β} {e : Env}
    (ha : a.Reaches P e) (hk : ∀ v e', (k v e').Reaches P e') : (a.andThen k).Reaches P e := by
  cases a with
  | trap t e' => exact ha
  | ok v e' => exact .after ha (hk v e')

/-- A request reaches what its continuation reaches. -/
theorem request_reaches {α : Type} {q : Request} {k : Reply → Env → Attempt α} {e : Env} (hc : q.canFail = true)
    (hq : P q = true) (hk : ∀ r e', (k r e').Reaches P e') : (request q k e).Reaches P e := by
  rcases request_cases q k e with ⟨t, ht, h⟩ | ⟨ht, h⟩
  · rw [h]; exact Env.Reach.refl.refused q hq hc t ht
  · rw [h]; exact .after (Env.Reach.refl.issue q hq fun _ => ht) (hk _ _)

theorem charge_reaches (c : Category) (e : Env) (h : P (.charge c) = true) : (charge c e).Reaches P e :=
  request_reaches rfl h fun _ _ => Env.Reach.refl

theorem readWord_reaches (a : Word) (e : Env) (h : P (.readWord a) = true) : (readWord a e).Reaches P e :=
  request_reaches rfl h fun _ _ => Env.Reach.refl

theorem writeWord_reaches (a v : Word) (be : BitVec 4) (e : Env) (h : P (.writeWord a v be) = true) :
    (writeWord a v be e).Reaches P e :=
  request_reaches rfl h fun _ _ => Env.Reach.refl.store a v be

theorem loadReserved_reaches (a : Word) (e : Env) (h : P (.loadReserved a) = true) (ha : wordAddr a = a) :
    (loadReserved a e).Reaches P e :=
  request_reaches rfl h fun _ _ => Env.Reach.refl.reserve a ha

theorem storeReserved_reaches (a v : Word) (e : Env) (h : P (.storeReserved a v) = true) :
    (storeReserved a v e).Reaches P e :=
  request_reaches rfl h fun r e' => by
    show Attempt.Reaches P e' (ite _ _ _)
    split
    · exact (Env.Reach.refl.store a v 0b1111#4).release
    · exact Env.Reach.refl.release

theorem csrRead_reaches (n : BitVec 12) (k : AccessKind) (e : Env) (h : P (.csrRead n k) = true) :
    (csrRead n k e).Reaches P e :=
  request_reaches rfl h fun _ _ => Env.Reach.refl

theorem csrWrite_reaches (n : BitVec 12) (v : Word) (k : AccessKind) (e : Env) (h : P (.csrWrite n v k) = true) :
    (csrWrite n v k e).Reaches P e :=
  request_reaches rfl h fun _ _ => Env.Reach.refl.setCsr n v

theorem sqrtMode_reaches (fmt : Fmt) (e : Env) (h : P (.sqrtMode fmt) = true) : (sqrtMode fmt e).Reaches P e := by
  unfold sqrtMode
  split <;> exact Env.Reach.refl.issue _ h (by simp [Request.canFail])

theorem readWords_reaches (h : ∀ a, P (.readWord a) = true) (n : Nat) (a : Word) (e : Env) :
    (readWords n a e).Reaches P e := by
  induction n generalizing a e with
  | zero => exact Env.Reach.refl
  | succ n ih =>
    exact (readWord_reaches a e (h a)).andThen fun w e => (ih (a + 4#32) e).andThen fun ws e => Env.Reach.refl

theorem writeWords_reaches (h : ∀ a v be, P (.writeWord a v be) = true) (ws : List Word) (a : Word) (e : Env) :
    (writeWords ws a e).Reaches P e := by
  induction ws generalizing a e with
  | nil => exact Env.Reach.refl
  | cons w ws ih => exact (writeWord_reaches a w _ e (h _ _ _)).andThen fun _ e => ih (a + 4#32) e

theorem memRead_reaches (h : ∀ a, P (.readWord a) = true) (sz : Size) (a : Word) (e : Env) :
    (memRead sz a e).Reaches P e := by
  unfold memRead
  split
  · cases sz
    case double | quad => exact (readWords_reaches h _ _ _).andThen fun _ _ => Env.Reach.refl
    all_goals exact (readWord_reaches _ _ (h _)).andThen fun _ _ => Env.Reach.refl
  · exact raise_reaches _ _ _

theorem memWrite_reaches (h : ∀ a v be, P (.writeWord a v be) = true) (sz : Size) (a : Word) (v : BitVec 128)
    (e : Env) : (memWrite sz a v e).Reaches P e := by
  unfold memWrite
  split
  · cases sz
    case double | quad => exact writeWords_reaches h _ _ _
    all_goals exact writeWord_reaches _ _ _ _ (h _ _ _)
  · exact raise_reaches _ _ _

theorem delegatedCsrOp_reaches (n : BitVec 12) (r w : Bool) (f : Word → Word) (rd : XReg) (e : Env) :
    (delegatedCsrOp n r w f rd e).Reaches Request.ofInstr e := by
  unfold delegatedCsrOp
  refine Attempt.Reaches.andThen ?_ fun old e => Attempt.Reaches.andThen ?_ fun _ e => Env.Reach.refl
  · split
    · exact csrRead_reaches _ _ _ rfl
    · exact Env.Reach.refl
  · split
    · exact csrWrite_reaches _ _ _ _ rfl
    · exact Env.Reach.refl

/-! ### The front end -/

theorem fetchParcel_reaches (a : Word) (e : Env) : (fetchParcel a e).Reaches Request.ofFrontEnd e :=
  (readWord_reaches _ _ rfl).andThen fun _ _ => Env.Reach.refl

theorem fetchBits_reaches (pc : Word) (e : Env) : (fetchBits pc e).Reaches Request.ofFrontEnd e := by
  refine (fetchParcel_reaches pc e).andThen fun p0 e => ?_
  show Attempt.Reaches _ e (ite _ _ _)
  split
  · exact (fetchParcel_reaches _ _).andThen fun _ _ => Env.Reach.refl
  · exact Env.Reach.refl

theorem decodeOrRaise_reaches (cfg : Config) (g : Gates) (b : Word) (len : Nat) (e : Env) :
    (decodeOrRaise cfg g b len e).Reaches P e := by
  unfold decodeOrRaise
  split <;> exact Env.Reach.refl

/-- The front end makes charges and word reads only. -/
theorem frontEnd_reaches (s : State) : (frontEnd s).Reaches Request.ofFrontEnd s.env := by
  refine (charge_reaches _ _ rfl).andThen fun _ e => ?_
  show Attempt.Reaches _ e (ite _ _ _)
  split
  · exact (fetchBits_reaches _ _).andThen fun b e => (decodeOrRaise_reaches _ _ _ _ _).andThen fun i e =>
      (charge_reaches _ _ rfl).andThen fun _ _ => Env.Reach.refl
  · exact raise_reaches _ _ _

/-! ### The end of an instruction -/

/-- An instruction's execution commits, or its trap is delivered. -/
theorem finish_cases (len : Nat) (a : Attempt Writes) (s : State) :
    (∃ w e, a = .ok w e ∧ finish len a s = .next (commit len w { s with env := e })) ∨
      (∃ t e, a = .trap t e ∧ finish len a s = .next (deliver t { s with env := e })) := by
  cases a with
  | ok w e => exact .inl ⟨w, e, rfl, rfl⟩
  | trap t e => exact .inr ⟨t, e, rfl, rfl⟩

end Sys2Proof.Machine
end

