-- ==== Sys2Proof/Laws/Registers.lean ====
section
/-! SUPPORT. NaN boxing, bit by bit, and the f registers' bound of FLEN bits. -/
namespace Sys2Proof.Machine

theorem Flen.bits_le (flen : Flen) : flen.bits ≤ 128 := by cases flen <;> decide

@[simp] theorem getLsbD_ones (n i : Nat) : (ones n).getLsbD i = (decide (i < 128) && decide (i < n)) := by
  simp [ones, BitVec.getLsbD_setWidth, BitVec.getLsbD_allOnes]

/-- The bits of `boxMask`: those from w to FLEN - 1 (R50). -/
theorem getLsbD_boxMask (flen : Flen) (fmt : Fmt) (i : Nat) :
    (boxMask flen fmt).getLsbD i = (decide (i < flen.bits) && !decide (i < fmt.width)) := by
  have := Flen.bits_le flen
  simp only [boxMask, BitVec.getLsbD_and, BitVec.getLsbD_not, getLsbD_ones]
  by_cases h : i < flen.bits
  · have : i < 128 := by omega
    simp [h, this]
  · simp [h]

/-- The bits of a boxed value: the value's below w, ones from w to FLEN - 1 (R406). -/
theorem getLsbD_boxed (flen : Flen) (fmt : Fmt) (v : BitVec fmt.width) (i : Nat) :
    (boxed flen fmt v).getLsbD i =
      (decide (i < flen.bits) && (v.getLsbD i || !decide (i < fmt.width))) := by
  have := Flen.bits_le flen
  simp only [boxed, BitVec.getLsbD_or, BitVec.getLsbD_and, BitVec.getLsbD_setWidth, getLsbD_ones, getLsbD_boxMask]
  by_cases h : i < flen.bits
  · have : i < 128 := by omega
    simp [h, this]
  · simp [h]

/-- A boxed value fits FLEN bits. -/
theorem boxed_bound (flen : Flen) (fmt : Fmt) (v : BitVec fmt.width) :
    boxed flen fmt v &&& ~~~(ones flen.bits) = 0#128 := by
  apply BitVec.eq_of_getLsbD_eq
  intro i hi
  simp only [BitVec.getLsbD_and, BitVec.getLsbD_not, getLsbD_boxed, getLsbD_ones, hi, BitVec.getLsbD_zero]
  by_cases h : i < flen.bits <;> simp [h]

/-- A boxed value passes the NaN-box check. -/
theorem boxed_and_boxMask (flen : Flen) (fmt : Fmt) (v : BitVec fmt.width) :
    boxed flen fmt v &&& boxMask flen fmt = boxMask flen fmt := by
  apply BitVec.eq_of_getLsbD_eq
  intro i _
  simp only [BitVec.getLsbD_and, getLsbD_boxed, getLsbD_boxMask]
  by_cases h : i < flen.bits <;> by_cases h' : i < fmt.width <;> simp [h, h']

theorem Cpu.wf_writeF {flen : Flen} {c : Cpu} (h : c.wf flen) (r : FReg) {p : BitVec 128}
    (hp : p &&& ~~~(ones flen.bits) = 0#128) : (c.writeF r p).wf flen := by
  intro i
  by_cases hi : r.toNat = i.val
  · have : (c.writeF r p).f[i] = p := by simp [Cpu.writeF, ← hi]
    rw [this, hp]
  · have : (c.writeF r p).f[i] = c.f[i] := by simp [Cpu.writeF, Vector.getElem_set_ne, hi]
    rw [this, h i]

theorem Cpu.wf_writeX {flen : Flen} {c : Cpu} (h : c.wf flen) (r : XReg) (v : Word) : (c.writeX r v).wf flen := by
  intro i; simpa using h i

/-- A commit keeps the f registers within FLEN bits if what it writes is. -/
theorem Cpu.wf_apply {flen : Flen} {c : Cpu} (h : c.wf flen) (len : Nat) {w : Writes}
    (hw : ∀ r p, w.f = some (r, p) → p &&& ~~~(ones flen.bits) = 0#128) : (c.apply len w).wf flen := by
  intro i
  cases hx : w.x with
  | none =>
    cases hf : w.f with
    | none => simpa [Cpu.apply, hx, hf] using h i
    | some q => simpa [Cpu.apply, hx, hf] using Cpu.wf_writeF h q.1 (hw q.1 q.2 hf) i
  | some p =>
    have h1 := Cpu.wf_writeX h p.1 p.2
    cases hf : w.f with
    | none => simpa [Cpu.apply, hx, hf] using h1 i
    | some q => simpa [Cpu.apply, hx, hf] using Cpu.wf_writeF h1 q.1 (hw q.1 q.2 hf) i

/-- A core restored from an image holds no bit above the image's FLEN. -/
theorem CpuImage.wf_toCpu (image : CpuImage) : image.toCpu.wf image.flen := by
  intro i
  rw [CpuImage.toCpu_f]
  apply BitVec.eq_of_getLsbD_eq
  intro k hk
  by_cases h : k < image.flen.bits
  · simp [hk, h]
  · simp [BitVec.getLsbD_of_ge _ k (Nat.le_of_not_lt h)]

/-- A restore keeps the f registers within FLEN bits. -/
theorem wf_restoreImage {s : State} (h : s.cpu.wf s.cfg.flen) (image : CpuImage) :
    (restoreImage image s).cpu.wf s.cfg.flen := by
  rw [restoreImage_cpu]
  split
  · rename_i he; exact he ▸ image.wf_toCpu
  · exact h

end Sys2Proof.Machine
end

