-- ==== Sys2Proof/Laws/Exec.lean ====
section
/-! SUPPORT. What executing an instruction can do, said once for every instruction (`exec_runs`): it ends in a commit or in
the delivery of one trap, it makes its own requests only, and what it schedules keeps the bounds of the registers. -/
namespace Sys2Proof.Machine

/-- What an instruction may schedule: f values of FLEN bits, an even target from an even pc, a whole FCSR only if it is a
CSR instruction. -/
structure Writes.Ok (s : State) (csr : Bool) (w : Writes) : Prop where
  f : ∀ r p, w.f = some (r, p) → p &&& ~~~(ones s.cfg.flen.bits) = 0#128
  pc : ∀ p, w.pc = some p → s.cpu.pc.toNat % 2 = 0 → p.toNat % 2 = 0
  fcsr : csr = false → w.fcsr = none

/-- An execution of `len` bytes from `s`: some attempt is finished, its requests an instruction's, its writes allowed. -/
def Runs (s : State) (len : Nat) (csr : Bool) (out : Host.Outcome State Fault Refusal) : Prop :=
  ∃ a : Attempt Writes, out = finish len a s ∧ a.Reaches Request.ofInstr s.env ∧ ∀ w e, a = .ok w e → w.Ok s csr

variable (s : State) (len : Nat)

/-- Writes to an x register and flags only. -/
theorem Writes.ok_x (csr : Bool) (x : Option (XReg × Word)) (fl : BitVec 5) :
    Writes.Ok s csr { x := x, flags := fl } :=
  ⟨fun _ _ h => by simp at h, fun _ h => by simp at h, fun _ => rfl⟩

/-- A boxed f write and flags. -/
theorem Writes.ok_fp (csr : Bool) {fmt : Fmt} (rd : FReg) (r : FpResult fmt) : Writes.Ok s csr (fpWrites s rd r) := by
  refine ⟨fun r' p h => ?_, fun _ h => by simp [fpWrites] at h, fun _ => rfl⟩
  simp only [fpWrites, Option.some.injEq, Prod.mk.injEq] at h
  rw [← h.2]; exact boxed_bound _ _ _

theorem runs_retire (csr : Bool) {w : Writes} (h : w.Ok s csr) : Runs s len csr (retire len w s) :=
  ⟨.ok w s.env, rfl, Env.Reach.refl, fun _ _ hw => by cases hw; exact h⟩

theorem runs_writeReg (rd : XReg) (v : Word) : Runs s len false (writeReg len rd v s) :=
  runs_retire s len false (Writes.ok_x s false _ _)

theorem runs_jump (rd : XReg) (target : Word) (h : s.cpu.pc.toNat % 2 = 0 → target.toNat % 2 = 0) :
    Runs s len false (jump len rd target s) :=
  runs_retire s len false ⟨fun _ _ h => by simp at h, fun p hp => by simp at hp; exact hp ▸ h, fun _ => rfl⟩

theorem even_add {a b : Word} (hb : b.toNat % 2 = 0) (ha : a.toNat % 2 = 0) : (a + b).toNat % 2 = 0 := by
  rw [BitVec.toNat_add]; omega

theorem runs_branch (taken : Bool) (off : Word) (h : off.toNat % 2 = 0) : Runs s len false (branch len taken off s) := by
  refine runs_retire s len false ⟨fun _ _ h => by simp at h, fun p hp hpc => ?_, fun _ => rfl⟩
  cases taken with
  | false => simp at hp
  | true => simp at hp; exact hp ▸ even_add h hpc

/-- An instruction whose writes follow some requests of its own. -/
theorem runs_after {α : Type} (csr : Bool) {a : Attempt α} {k : α → Env → Writes} (ha : a.Reaches Request.ofInstr s.env)
    (hk : ∀ v e, (k v e).Ok s csr) : Runs s len csr (finish len (a.andThen fun v e => .ok (k v e) e) s) :=
  ⟨_, rfl, ha.andThen fun _ _ => Env.Reach.refl, fun w e h => by
    obtain ⟨u, e1, -, h⟩ := Attempt.andThen_eq_ok h
    cases h; exact hk u _⟩

theorem runs_loadX (sz : Size) (ext : BitVec 128 → Word) (rd rs1 : XReg) (imm : Word) :
    Runs s len false (loadX len sz ext rd rs1 imm s) :=
  runs_after s len false (memRead_reaches (fun _ => rfl) _ _ _) fun _ _ => Writes.ok_x s false _ _

theorem runs_storeX (sz : Size) (rs2 rs1 : XReg) (imm : Word) : Runs s len false (storeX len sz rs2 rs1 imm s) :=
  runs_after s len false (memWrite_reaches (fun _ _ _ => rfl) _ _ _ _) fun _ _ => Writes.ok_x s false _ _

theorem runs_loadF (fmt : Fmt) (rd : FReg) (rs1 : XReg) (imm : Word) : Runs s len false (loadF len fmt rd rs1 imm s) :=
  runs_after s len false (memRead_reaches (fun _ => rfl) _ _ _) fun _ _ => Writes.ok_fp s false _ _

theorem runs_storeF (fmt : Fmt) (rs2 : FReg) (rs1 : XReg) (imm : Word) :
    Runs s len false (storeF len fmt rs2 rs1 imm s) :=
  runs_after s len false (memWrite_reaches (fun _ _ _ => rfl) _ _ _ _) fun _ _ => Writes.ok_x s false _ _

theorem runs_raise (csr : Bool) (c : Cause) (info : Word) : Runs s len csr (finish len (raise c info s.env) s) :=
  ⟨_, rfl, raise_reaches _ _ _, fun _ _ h => by cases h⟩

/-- An aligned access, or the trap of a misaligned one. -/
theorem runs_aligned {sz : Size} {addr : Word} {cause : Cause} {a : Attempt Writes}
    (ha : sz.aligned addr = true → a.Reaches Request.ofInstr s.env) (hk : ∀ w e, a = .ok w e → w.Ok s false) :
    Runs s len false (finish len (if sz.aligned addr then a else raise cause addr s.env) s) := by
  split
  · exact ⟨a, rfl, ha ‹_›, hk⟩
  · exact runs_raise s len false cause addr

theorem runs_amo (op : Word → Word → Word) (rd rs1 rs2 : XReg) : Runs s 4 false (amo op rd rs1 rs2 s) := by
  refine runs_aligned s 4 (fun _ => ?_) fun w e h => ?_
  · exact (readWord_reaches _ _ rfl).andThen fun _ _ =>
      (writeWord_reaches _ _ _ _ rfl).andThen fun _ _ => Env.Reach.refl
  · obtain ⟨_, _, -, h⟩ := Attempt.andThen_eq_ok h
    obtain ⟨_, _, -, h⟩ := Attempt.andThen_eq_ok h
    cases h; exact Writes.ok_x s false _ _

/-- A word-aligned address is a word's own address. -/
theorem wordAddr_of_aligned {a : Word} (h : Size.word.aligned a = true) : wordAddr a = a := by
  have h : a.extractLsb' 0 2 = 0#2 := by simpa [Size.aligned] using h
  apply BitVec.eq_of_getLsbD_eq
  intro i hi
  have hmask : ∀ j < 32, (0xFFFFFFFC#32).getLsbD j = decide (2 ≤ j) := by decide
  simp only [wordAddr, BitVec.getLsbD_and, hmask i hi]
  by_cases h2 : 2 ≤ i
  · simp [h2]
  · have := congrArg (fun b => b.getLsbD i) h
    have hi2 : i < 2 := by omega
    simp [hi2] at this
    simp [this]

theorem runs_lrW (aq rl : BitVec 1) (rd rs1 : XReg) : Runs s 4 false (execLrW aq rl rd rs1 s) := by
  refine runs_aligned s 4 (fun h => ?_) fun w e h => ?_
  · exact (loadReserved_reaches _ _ rfl (wordAddr_of_aligned h)).andThen fun _ _ => Env.Reach.refl
  · obtain ⟨_, _, -, h⟩ := Attempt.andThen_eq_ok h
    cases h; exact Writes.ok_x s false _ _

theorem runs_scW (aq rl : BitVec 1) (rd rs1 rs2 : XReg) : Runs s 4 false (execScW aq rl rd rs1 rs2 s) := by
  refine runs_aligned s 4 (fun h => ?_) fun w e h => ?_
  · exact (storeReserved_reaches _ _ _ rfl).andThen fun _ _ => Env.Reach.refl
  · obtain ⟨_, _, -, h⟩ := Attempt.andThen_eq_ok h
    cases h; exact Writes.ok_x s false _ _

theorem runs_csrOp (inst : Word) (n : BitVec 12) (r w : Bool) (f : Word → Word) (rd : XReg) :
    Runs s 4 true (csrOp inst n r w f rd s) := by
  unfold csrOp
  split
  · unfold fpCsrOp
    split
    · exact ⟨_, rfl, Env.Reach.refl, fun w e h => by
        cases h; exact ⟨fun _ _ h => by simp at h, fun _ h => by simp at h, by simp⟩⟩
    · exact runs_raise s 4 true _ _
  · refine ⟨_, rfl, delegatedCsrOp_reaches _ _ _ _ _ _, fun w e h => ?_⟩
    obtain ⟨_, _, -, h⟩ := Attempt.andThen_eq_ok h
    obtain ⟨_, _, -, h⟩ := Attempt.andThen_eq_ok h
    cases h; exact Writes.ok_x s true _ _

theorem runs_withMode (inst : Word) (rm : Rm) {w : RoundingMode → Writes} (h : ∀ m, (w m).Ok s false) :
    Runs s 4 false (withMode inst rm w s) :=
  runs_after s 4 false (orIllegal_reaches _ _ _) fun m _ => h m

theorem runs_fpSqrt (fmt : Fmt) (inst : Word) (rd rs1 : FReg) (rm : Rm) :
    Runs s 4 false (fpSqrt fmt inst rd rs1 rm s) := by
  refine ⟨_, rfl, (orIllegal_reaches _ _ _).andThen fun _ _ => (sqrtMode_reaches _ _ rfl).andThen fun _ _ =>
    (orIllegal_reaches _ _ _).andThen fun _ _ => Env.Reach.refl, fun w e h => ?_⟩
  obtain ⟨_, _, -, h⟩ := Attempt.andThen_eq_ok h
  obtain ⟨_, _, -, h⟩ := Attempt.andThen_eq_ok h
  obtain ⟨_, _, -, h⟩ := Attempt.andThen_eq_ok h
  cases h; exact Writes.ok_fp s false _ _

/-! ### The targets of jumps and branches are even (R131, R208) -/

theorem even_of_bit {a : Word} (h : a.getLsbD 0 = false) : a.toNat % 2 = 0 := by
  simp only [BitVec.getLsbD, Nat.testBit_zero, decide_eq_false_iff_not] at h
  omega

theorem offset_even {n : Nat} (v : BitVec n) : (sext (scaled 1 v)).toNat % 2 = 0 :=
  even_of_bit (by
    simp only [sext, scaled, BitVec.getLsbD_signExtend, BitVec.getLsbD_append]
    simp)

theorem indirectTarget_even (c : Cpu) (rs1 : XReg) (imm : Word) : (indirectTarget c rs1 imm).toNat % 2 = 0 :=
  even_of_bit (by
    have : (0xFFFFFFFE#32).getLsbD 0 = false := by decide
    rw [indirectTarget, BitVec.getLsbD_and, this, Bool.and_false])

/-- The instruction is one of the six of Zicsr (R357 to R362). -/
def isCsr : Instr → Bool
  | .csrrw _ _ _ | .csrrs _ _ _ | .csrrc _ _ _ | .csrrwi _ _ _ | .csrrsi _ _ _ | .csrrci _ _ _ => true
  | _ => false

/-! ### One lemma for each meaning -/

theorem execLui_runs (rd : XReg) (imm : BitVec 20) : Runs s 4 false (execLui rd imm s) :=
  runs_writeReg s _ _ _

theorem execAuipc_runs (rd : XReg) (imm : BitVec 20) : Runs s 4 false (execAuipc rd imm s) :=
  runs_writeReg s _ _ _

theorem execJal_runs (rd : XReg) (off : BitVec 20) : Runs s 4 false (execJal rd off s) :=
  runs_jump s _ _ _ (even_add (offset_even _))

theorem execJalr_runs (rd : XReg) (rs1 : XReg) (imm : BitVec 12) : Runs s 4 false (execJalr rd rs1 imm s) :=
  runs_jump s _ _ _ fun _ => indirectTarget_even _ _ _

theorem execBeq_runs (rs1 : XReg) (rs2 : XReg) (off : BitVec 12) : Runs s 4 false (execBeq rs1 rs2 off s) :=
  runs_branch s _ _ _ (offset_even _)

theorem execBne_runs (rs1 : XReg) (rs2 : XReg) (off : BitVec 12) : Runs s 4 false (execBne rs1 rs2 off s) :=
  runs_branch s _ _ _ (offset_even _)

theorem execBlt_runs (rs1 : XReg) (rs2 : XReg) (off : BitVec 12) : Runs s 4 false (execBlt rs1 rs2 off s) :=
  runs_branch s _ _ _ (offset_even _)

theorem execBge_runs (rs1 : XReg) (rs2 : XReg) (off : BitVec 12) : Runs s 4 false (execBge rs1 rs2 off s) :=
  runs_branch s _ _ _ (offset_even _)

theorem execBltu_runs (rs1 : XReg) (rs2 : XReg) (off : BitVec 12) : Runs s 4 false (execBltu rs1 rs2 off s) :=
  runs_branch s _ _ _ (offset_even _)

theorem execBgeu_runs (rs1 : XReg) (rs2 : XReg) (off : BitVec 12) : Runs s 4 false (execBgeu rs1 rs2 off s) :=
  runs_branch s _ _ _ (offset_even _)

theorem execLb_runs (rd : XReg) (rs1 : XReg) (imm : BitVec 12) : Runs s 4 false (execLb rd rs1 imm s) :=
  runs_loadX s _ _ _ _ _ _

theorem execLh_runs (rd : XReg) (rs1 : XReg) (imm : BitVec 12) : Runs s 4 false (execLh rd rs1 imm s) :=
  runs_loadX s _ _ _ _ _ _

theorem execLw_runs (rd : XReg) (rs1 : XReg) (imm : BitVec 12) : Runs s 4 false (execLw rd rs1 imm s) :=
  runs_loadX s _ _ _ _ _ _

theorem execLbu_runs (rd : XReg) (rs1 : XReg) (imm : BitVec 12) : Runs s 4 false (execLbu rd rs1 imm s) :=
  runs_loadX s _ _ _ _ _ _

theorem execLhu_runs (rd : XReg) (rs1 : XReg) (imm : BitVec 12) : Runs s 4 false (execLhu rd rs1 imm s) :=
  runs_loadX s _ _ _ _ _ _

theorem execSb_runs (rs2 : XReg) (rs1 : XReg) (imm : BitVec 12) : Runs s 4 false (execSb rs2 rs1 imm s) :=
  runs_storeX s _ _ _ _ _

theorem execSh_runs (rs2 : XReg) (rs1 : XReg) (imm : BitVec 12) : Runs s 4 false (execSh rs2 rs1 imm s) :=
  runs_storeX s _ _ _ _ _

theorem execSw_runs (rs2 : XReg) (rs1 : XReg) (imm : BitVec 12) : Runs s 4 false (execSw rs2 rs1 imm s) :=
  runs_storeX s _ _ _ _ _

theorem execAddi_runs (rd : XReg) (rs1 : XReg) (imm : BitVec 12) : Runs s 4 false (execAddi rd rs1 imm s) :=
  runs_writeReg s _ _ _

theorem execSlti_runs (rd : XReg) (rs1 : XReg) (imm : BitVec 12) : Runs s 4 false (execSlti rd rs1 imm s) :=
  runs_writeReg s _ _ _

theorem execSltiu_runs (rd : XReg) (rs1 : XReg) (imm : BitVec 12) : Runs s 4 false (execSltiu rd rs1 imm s) :=
  runs_writeReg s _ _ _

theorem execXori_runs (rd : XReg) (rs1 : XReg) (imm : BitVec 12) : Runs s 4 false (execXori rd rs1 imm s) :=
  runs_writeReg s _ _ _

theorem execOri_runs (rd : XReg) (rs1 : XReg) (imm : BitVec 12) : Runs s 4 false (execOri rd rs1 imm s) :=
  runs_writeReg s _ _ _

theorem execAndi_runs (rd : XReg) (rs1 : XReg) (imm : BitVec 12) : Runs s 4 false (execAndi rd rs1 imm s) :=
  runs_writeReg s _ _ _

theorem execSlli_runs (rd : XReg) (rs1 : XReg) (shamt : BitVec 5) : Runs s 4 false (execSlli rd rs1 shamt s) :=
  runs_writeReg s _ _ _

theorem execSrli_runs (rd : XReg) (rs1 : XReg) (shamt : BitVec 5) : Runs s 4 false (execSrli rd rs1 shamt s) :=
  runs_writeReg s _ _ _

theorem execSrai_runs (rd : XReg) (rs1 : XReg) (shamt : BitVec 5) : Runs s 4 false (execSrai rd rs1 shamt s) :=
  runs_writeReg s _ _ _

theorem execAdd_runs (rd : XReg) (rs1 : XReg) (rs2 : XReg) : Runs s 4 false (execAdd rd rs1 rs2 s) :=
  runs_writeReg s _ _ _

theorem execSub_runs (rd : XReg) (rs1 : XReg) (rs2 : XReg) : Runs s 4 false (execSub rd rs1 rs2 s) :=
  runs_writeReg s _ _ _

theorem execSll_runs (rd : XReg) (rs1 : XReg) (rs2 : XReg) : Runs s 4 false (execSll rd rs1 rs2 s) :=
  runs_writeReg s _ _ _

theorem execSlt_runs (rd : XReg) (rs1 : XReg) (rs2 : XReg) : Runs s 4 false (execSlt rd rs1 rs2 s) :=
  runs_writeReg s _ _ _

theorem execSltu_runs (rd : XReg) (rs1 : XReg) (rs2 : XReg) : Runs s 4 false (execSltu rd rs1 rs2 s) :=
  runs_writeReg s _ _ _

theorem execXor_runs (rd : XReg) (rs1 : XReg) (rs2 : XReg) : Runs s 4 false (execXor rd rs1 rs2 s) :=
  runs_writeReg s _ _ _

theorem execSrl_runs (rd : XReg) (rs1 : XReg) (rs2 : XReg) : Runs s 4 false (execSrl rd rs1 rs2 s) :=
  runs_writeReg s _ _ _

theorem execSra_runs (rd : XReg) (rs1 : XReg) (rs2 : XReg) : Runs s 4 false (execSra rd rs1 rs2 s) :=
  runs_writeReg s _ _ _

theorem execOr_runs (rd : XReg) (rs1 : XReg) (rs2 : XReg) : Runs s 4 false (execOr rd rs1 rs2 s) :=
  runs_writeReg s _ _ _

theorem execAnd_runs (rd : XReg) (rs1 : XReg) (rs2 : XReg) : Runs s 4 false (execAnd rd rs1 rs2 s) :=
  runs_writeReg s _ _ _

theorem execFence_runs (fm : BitVec 4) (pred : BitVec 4) (succ : BitVec 4) (rs1 : XReg) (rd : XReg) : Runs s 4 false (execFence fm pred succ rs1 rd s) :=
  runs_retire s _ _ (Writes.ok_x s _ _ _)

theorem execEcall_runs : Runs s 4 false (execEcall s) :=
  runs_raise s _ _ _ _

theorem execEbreak_runs : Runs s 4 false (execEbreak s) :=
  runs_raise s _ _ _ _

theorem execMul_runs (rd : XReg) (rs1 : XReg) (rs2 : XReg) : Runs s 4 false (execMul rd rs1 rs2 s) :=
  runs_writeReg s _ _ _

theorem execMulh_runs (rd : XReg) (rs1 : XReg) (rs2 : XReg) : Runs s 4 false (execMulh rd rs1 rs2 s) :=
  runs_writeReg s _ _ _

theorem execMulhsu_runs (rd : XReg) (rs1 : XReg) (rs2 : XReg) : Runs s 4 false (execMulhsu rd rs1 rs2 s) :=
  runs_writeReg s _ _ _

theorem execMulhu_runs (rd : XReg) (rs1 : XReg) (rs2 : XReg) : Runs s 4 false (execMulhu rd rs1 rs2 s) :=
  runs_writeReg s _ _ _

theorem execDiv_runs (rd : XReg) (rs1 : XReg) (rs2 : XReg) : Runs s 4 false (execDiv rd rs1 rs2 s) :=
  runs_writeReg s _ _ _

theorem execDivu_runs (rd : XReg) (rs1 : XReg) (rs2 : XReg) : Runs s 4 false (execDivu rd rs1 rs2 s) :=
  runs_writeReg s _ _ _

theorem execRem_runs (rd : XReg) (rs1 : XReg) (rs2 : XReg) : Runs s 4 false (execRem rd rs1 rs2 s) :=
  runs_writeReg s _ _ _

theorem execRemu_runs (rd : XReg) (rs1 : XReg) (rs2 : XReg) : Runs s 4 false (execRemu rd rs1 rs2 s) :=
  runs_writeReg s _ _ _

theorem execAmoswapW_runs (aq : BitVec 1) (rl : BitVec 1) (rd : XReg) (rs1 : XReg) (rs2 : XReg) : Runs s 4 false (execAmoswapW aq rl rd rs1 rs2 s) :=
  runs_amo s _ _ _ _

theorem execAmoaddW_runs (aq : BitVec 1) (rl : BitVec 1) (rd : XReg) (rs1 : XReg) (rs2 : XReg) : Runs s 4 false (execAmoaddW aq rl rd rs1 rs2 s) :=
  runs_amo s _ _ _ _

theorem execAmoxorW_runs (aq : BitVec 1) (rl : BitVec 1) (rd : XReg) (rs1 : XReg) (rs2 : XReg) : Runs s 4 false (execAmoxorW aq rl rd rs1 rs2 s) :=
  runs_amo s _ _ _ _

theorem execAmoandW_runs (aq : BitVec 1) (rl : BitVec 1) (rd : XReg) (rs1 : XReg) (rs2 : XReg) : Runs s 4 false (execAmoandW aq rl rd rs1 rs2 s) :=
  runs_amo s _ _ _ _

theorem execAmoorW_runs (aq : BitVec 1) (rl : BitVec 1) (rd : XReg) (rs1 : XReg) (rs2 : XReg) : Runs s 4 false (execAmoorW aq rl rd rs1 rs2 s) :=
  runs_amo s _ _ _ _

theorem execAmominW_runs (aq : BitVec 1) (rl : BitVec 1) (rd : XReg) (rs1 : XReg) (rs2 : XReg) : Runs s 4 false (execAmominW aq rl rd rs1 rs2 s) :=
  runs_amo s _ _ _ _

theorem execAmomaxW_runs (aq : BitVec 1) (rl : BitVec 1) (rd : XReg) (rs1 : XReg) (rs2 : XReg) : Runs s 4 false (execAmomaxW aq rl rd rs1 rs2 s) :=
  runs_amo s _ _ _ _

theorem execAmominuW_runs (aq : BitVec 1) (rl : BitVec 1) (rd : XReg) (rs1 : XReg) (rs2 : XReg) : Runs s 4 false (execAmominuW aq rl rd rs1 rs2 s) :=
  runs_amo s _ _ _ _

theorem execAmomaxuW_runs (aq : BitVec 1) (rl : BitVec 1) (rd : XReg) (rs1 : XReg) (rs2 : XReg) : Runs s 4 false (execAmomaxuW aq rl rd rs1 rs2 s) :=
  runs_amo s _ _ _ _

theorem execCsrrw_runs (rd : XReg) (csr : BitVec 12) (rs1 : XReg) : Runs s 4 true (execCsrrw rd csr rs1 s) :=
  runs_csrOp s _ _ _ _ _ _

theorem execCsrrs_runs (rd : XReg) (csr : BitVec 12) (rs1 : XReg) : Runs s 4 true (execCsrrs rd csr rs1 s) :=
  runs_csrOp s _ _ _ _ _ _

theorem execCsrrc_runs (rd : XReg) (csr : BitVec 12) (rs1 : XReg) : Runs s 4 true (execCsrrc rd csr rs1 s) :=
  runs_csrOp s _ _ _ _ _ _

theorem execCsrrwi_runs (rd : XReg) (csr : BitVec 12) (uimm : BitVec 5) : Runs s 4 true (execCsrrwi rd csr uimm s) :=
  runs_csrOp s _ _ _ _ _ _

theorem execCsrrsi_runs (rd : XReg) (csr : BitVec 12) (uimm : BitVec 5) : Runs s 4 true (execCsrrsi rd csr uimm s) :=
  runs_csrOp s _ _ _ _ _ _

theorem execCsrrci_runs (rd : XReg) (csr : BitVec 12) (uimm : BitVec 5) : Runs s 4 true (execCsrrci rd csr uimm s) :=
  runs_csrOp s _ _ _ _ _ _

theorem execFenceI_runs (imm : BitVec 12) (rs1 : XReg) (rd : XReg) : Runs s 4 false (execFenceI imm rs1 rd s) :=
  runs_retire s _ _ (Writes.ok_x s _ _ _)

theorem execFlw_runs (rd : FReg) (rs1 : XReg) (imm : BitVec 12) : Runs s 4 false (execFlw rd rs1 imm s) :=
  runs_loadF s _ _ _ _ _

theorem execFsw_runs (rs2 : FReg) (rs1 : XReg) (imm : BitVec 12) : Runs s 4 false (execFsw rs2 rs1 imm s) :=
  runs_storeF s _ _ _ _ _

theorem execFmaddS_runs (rd : FReg) (rs1 : FReg) (rs2 : FReg) (rs3 : FReg) (rm : Rm) : Runs s 4 false (execFmaddS rd rs1 rs2 rs3 rm s) :=
  runs_withMode s _ _ fun _ => Writes.ok_fp s _ _ _

theorem execFmsubS_runs (rd : FReg) (rs1 : FReg) (rs2 : FReg) (rs3 : FReg) (rm : Rm) : Runs s 4 false (execFmsubS rd rs1 rs2 rs3 rm s) :=
  runs_withMode s _ _ fun _ => Writes.ok_fp s _ _ _

theorem execFnmsubS_runs (rd : FReg) (rs1 : FReg) (rs2 : FReg) (rs3 : FReg) (rm : Rm) : Runs s 4 false (execFnmsubS rd rs1 rs2 rs3 rm s) :=
  runs_withMode s _ _ fun _ => Writes.ok_fp s _ _ _

theorem execFnmaddS_runs (rd : FReg) (rs1 : FReg) (rs2 : FReg) (rs3 : FReg) (rm : Rm) : Runs s 4 false (execFnmaddS rd rs1 rs2 rs3 rm s) :=
  runs_withMode s _ _ fun _ => Writes.ok_fp s _ _ _

theorem execFaddS_runs (rd : FReg) (rs1 : FReg) (rs2 : FReg) (rm : Rm) : Runs s 4 false (execFaddS rd rs1 rs2 rm s) :=
  runs_withMode s _ _ fun _ => Writes.ok_fp s _ _ _

theorem execFsubS_runs (rd : FReg) (rs1 : FReg) (rs2 : FReg) (rm : Rm) : Runs s 4 false (execFsubS rd rs1 rs2 rm s) :=
  runs_withMode s _ _ fun _ => Writes.ok_fp s _ _ _

theorem execFmulS_runs (rd : FReg) (rs1 : FReg) (rs2 : FReg) (rm : Rm) : Runs s 4 false (execFmulS rd rs1 rs2 rm s) :=
  runs_withMode s _ _ fun _ => Writes.ok_fp s _ _ _

theorem execFdivS_runs (rd : FReg) (rs1 : FReg) (rs2 : FReg) (rm : Rm) : Runs s 4 false (execFdivS rd rs1 rs2 rm s) :=
  runs_withMode s _ _ fun _ => Writes.ok_fp s _ _ _

theorem execFsqrtS_runs (rd : FReg) (rs1 : FReg) (rm : Rm) : Runs s 4 false (execFsqrtS rd rs1 rm s) :=
  runs_fpSqrt s _ _ _ _ _

theorem execFsgnjS_runs (rd : FReg) (rs1 : FReg) (rs2 : FReg) : Runs s 4 false (execFsgnjS rd rs1 rs2 s) :=
  runs_retire s _ _ (Writes.ok_fp s _ _ _)

theorem execFsgnjnS_runs (rd : FReg) (rs1 : FReg) (rs2 : FReg) : Runs s 4 false (execFsgnjnS rd rs1 rs2 s) :=
  runs_retire s _ _ (Writes.ok_fp s _ _ _)

theorem execFsgnjxS_runs (rd : FReg) (rs1 : FReg) (rs2 : FReg) : Runs s 4 false (execFsgnjxS rd rs1 rs2 s) :=
  runs_retire s _ _ (Writes.ok_fp s _ _ _)

theorem execFminS_runs (rd : FReg) (rs1 : FReg) (rs2 : FReg) : Runs s 4 false (execFminS rd rs1 rs2 s) :=
  runs_retire s _ _ (Writes.ok_fp s _ _ _)

theorem execFmaxS_runs (rd : FReg) (rs1 : FReg) (rs2 : FReg) : Runs s 4 false (execFmaxS rd rs1 rs2 s) :=
  runs_retire s _ _ (Writes.ok_fp s _ _ _)

theorem execFeqS_runs (rd : XReg) (rs1 : FReg) (rs2 : FReg) : Runs s 4 false (execFeqS rd rs1 rs2 s) :=
  runs_retire s _ _ (Writes.ok_x s _ _ _)

theorem execFltS_runs (rd : XReg) (rs1 : FReg) (rs2 : FReg) : Runs s 4 false (execFltS rd rs1 rs2 s) :=
  runs_retire s _ _ (Writes.ok_x s _ _ _)

theorem execFleS_runs (rd : XReg) (rs1 : FReg) (rs2 : FReg) : Runs s 4 false (execFleS rd rs1 rs2 s) :=
  runs_retire s _ _ (Writes.ok_x s _ _ _)

theorem execFclassS_runs (rd : XReg) (rs1 : FReg) : Runs s 4 false (execFclassS rd rs1 s) :=
  runs_writeReg s _ _ _

theorem execFcvtWS_runs (rd : XReg) (rs1 : FReg) (rm : Rm) : Runs s 4 false (execFcvtWS rd rs1 rm s) :=
  runs_withMode s _ _ fun _ => Writes.ok_x s _ _ _

theorem execFcvtWuS_runs (rd : XReg) (rs1 : FReg) (rm : Rm) : Runs s 4 false (execFcvtWuS rd rs1 rm s) :=
  runs_withMode s _ _ fun _ => Writes.ok_x s _ _ _

theorem execFcvtSW_runs (rd : FReg) (rs1 : XReg) (rm : Rm) : Runs s 4 false (execFcvtSW rd rs1 rm s) :=
  runs_withMode s _ _ fun _ => Writes.ok_fp s _ _ _

theorem execFcvtSWu_runs (rd : FReg) (rs1 : XReg) (rm : Rm) : Runs s 4 false (execFcvtSWu rd rs1 rm s) :=
  runs_withMode s _ _ fun _ => Writes.ok_fp s _ _ _

theorem execFld_runs (rd : FReg) (rs1 : XReg) (imm : BitVec 12) : Runs s 4 false (execFld rd rs1 imm s) :=
  runs_loadF s _ _ _ _ _

theorem execFsd_runs (rs2 : FReg) (rs1 : XReg) (imm : BitVec 12) : Runs s 4 false (execFsd rs2 rs1 imm s) :=
  runs_storeF s _ _ _ _ _

theorem execFmaddD_runs (rd : FReg) (rs1 : FReg) (rs2 : FReg) (rs3 : FReg) (rm : Rm) : Runs s 4 false (execFmaddD rd rs1 rs2 rs3 rm s) :=
  runs_withMode s _ _ fun _ => Writes.ok_fp s _ _ _

theorem execFmsubD_runs (rd : FReg) (rs1 : FReg) (rs2 : FReg) (rs3 : FReg) (rm : Rm) : Runs s 4 false (execFmsubD rd rs1 rs2 rs3 rm s) :=
  runs_withMode s _ _ fun _ => Writes.ok_fp s _ _ _

theorem execFnmsubD_runs (rd : FReg) (rs1 : FReg) (rs2 : FReg) (rs3 : FReg) (rm : Rm) : Runs s 4 false (execFnmsubD rd rs1 rs2 rs3 rm s) :=
  runs_withMode s _ _ fun _ => Writes.ok_fp s _ _ _

theorem execFnmaddD_runs (rd : FReg) (rs1 : FReg) (rs2 : FReg) (rs3 : FReg) (rm : Rm) : Runs s 4 false (execFnmaddD rd rs1 rs2 rs3 rm s) :=
  runs_withMode s _ _ fun _ => Writes.ok_fp s _ _ _

theorem execFaddD_runs (rd : FReg) (rs1 : FReg) (rs2 : FReg) (rm : Rm) : Runs s 4 false (execFaddD rd rs1 rs2 rm s) :=
  runs_withMode s _ _ fun _ => Writes.ok_fp s _ _ _

theorem execFsubD_runs (rd : FReg) (rs1 : FReg) (rs2 : FReg) (rm : Rm) : Runs s 4 false (execFsubD rd rs1 rs2 rm s) :=
  runs_withMode s _ _ fun _ => Writes.ok_fp s _ _ _

theorem execFmulD_runs (rd : FReg) (rs1 : FReg) (rs2 : FReg) (rm : Rm) : Runs s 4 false (execFmulD rd rs1 rs2 rm s) :=
  runs_withMode s _ _ fun _ => Writes.ok_fp s _ _ _

theorem execFdivD_runs (rd : FReg) (rs1 : FReg) (rs2 : FReg) (rm : Rm) : Runs s 4 false (execFdivD rd rs1 rs2 rm s) :=
  runs_withMode s _ _ fun _ => Writes.ok_fp s _ _ _

theorem execFsqrtD_runs (rd : FReg) (rs1 : FReg) (rm : Rm) : Runs s 4 false (execFsqrtD rd rs1 rm s) :=
  runs_fpSqrt s _ _ _ _ _

theorem execFsgnjD_runs (rd : FReg) (rs1 : FReg) (rs2 : FReg) : Runs s 4 false (execFsgnjD rd rs1 rs2 s) :=
  runs_retire s _ _ (Writes.ok_fp s _ _ _)

theorem execFsgnjnD_runs (rd : FReg) (rs1 : FReg) (rs2 : FReg) : Runs s 4 false (execFsgnjnD rd rs1 rs2 s) :=
  runs_retire s _ _ (Writes.ok_fp s _ _ _)

theorem execFsgnjxD_runs (rd : FReg) (rs1 : FReg) (rs2 : FReg) : Runs s 4 false (execFsgnjxD rd rs1 rs2 s) :=
  runs_retire s _ _ (Writes.ok_fp s _ _ _)

theorem execFminD_runs (rd : FReg) (rs1 : FReg) (rs2 : FReg) : Runs s 4 false (execFminD rd rs1 rs2 s) :=
  runs_retire s _ _ (Writes.ok_fp s _ _ _)

theorem execFmaxD_runs (rd : FReg) (rs1 : FReg) (rs2 : FReg) : Runs s 4 false (execFmaxD rd rs1 rs2 s) :=
  runs_retire s _ _ (Writes.ok_fp s _ _ _)

theorem execFeqD_runs (rd : XReg) (rs1 : FReg) (rs2 : FReg) : Runs s 4 false (execFeqD rd rs1 rs2 s) :=
  runs_retire s _ _ (Writes.ok_x s _ _ _)

theorem execFltD_runs (rd : XReg) (rs1 : FReg) (rs2 : FReg) : Runs s 4 false (execFltD rd rs1 rs2 s) :=
  runs_retire s _ _ (Writes.ok_x s _ _ _)

theorem execFleD_runs (rd : XReg) (rs1 : FReg) (rs2 : FReg) : Runs s 4 false (execFleD rd rs1 rs2 s) :=
  runs_retire s _ _ (Writes.ok_x s _ _ _)

theorem execFclassD_runs (rd : XReg) (rs1 : FReg) : Runs s 4 false (execFclassD rd rs1 s) :=
  runs_writeReg s _ _ _

theorem execFcvtWD_runs (rd : XReg) (rs1 : FReg) (rm : Rm) : Runs s 4 false (execFcvtWD rd rs1 rm s) :=
  runs_withMode s _ _ fun _ => Writes.ok_x s _ _ _

theorem execFcvtWuD_runs (rd : XReg) (rs1 : FReg) (rm : Rm) : Runs s 4 false (execFcvtWuD rd rs1 rm s) :=
  runs_withMode s _ _ fun _ => Writes.ok_x s _ _ _

theorem execFcvtDW_runs (rd : FReg) (rs1 : XReg) (rm : Rm) : Runs s 4 false (execFcvtDW rd rs1 rm s) :=
  runs_withMode s _ _ fun _ => Writes.ok_fp s _ _ _

theorem execFcvtDWu_runs (rd : FReg) (rs1 : XReg) (rm : Rm) : Runs s 4 false (execFcvtDWu rd rs1 rm s) :=
  runs_withMode s _ _ fun _ => Writes.ok_fp s _ _ _

theorem execFlq_runs (rd : FReg) (rs1 : XReg) (imm : BitVec 12) : Runs s 4 false (execFlq rd rs1 imm s) :=
  runs_loadF s _ _ _ _ _

theorem execFsq_runs (rs2 : FReg) (rs1 : XReg) (imm : BitVec 12) : Runs s 4 false (execFsq rs2 rs1 imm s) :=
  runs_storeF s _ _ _ _ _

theorem execFmaddQ_runs (rd : FReg) (rs1 : FReg) (rs2 : FReg) (rs3 : FReg) (rm : Rm) : Runs s 4 false (execFmaddQ rd rs1 rs2 rs3 rm s) :=
  runs_withMode s _ _ fun _ => Writes.ok_fp s _ _ _

theorem execFmsubQ_runs (rd : FReg) (rs1 : FReg) (rs2 : FReg) (rs3 : FReg) (rm : Rm) : Runs s 4 false (execFmsubQ rd rs1 rs2 rs3 rm s) :=
  runs_withMode s _ _ fun _ => Writes.ok_fp s _ _ _

theorem execFnmsubQ_runs (rd : FReg) (rs1 : FReg) (rs2 : FReg) (rs3 : FReg) (rm : Rm) : Runs s 4 false (execFnmsubQ rd rs1 rs2 rs3 rm s) :=
  runs_withMode s _ _ fun _ => Writes.ok_fp s _ _ _

theorem execFnmaddQ_runs (rd : FReg) (rs1 : FReg) (rs2 : FReg) (rs3 : FReg) (rm : Rm) : Runs s 4 false (execFnmaddQ rd rs1 rs2 rs3 rm s) :=
  runs_withMode s _ _ fun _ => Writes.ok_fp s _ _ _

theorem execFaddQ_runs (rd : FReg) (rs1 : FReg) (rs2 : FReg) (rm : Rm) : Runs s 4 false (execFaddQ rd rs1 rs2 rm s) :=
  runs_withMode s _ _ fun _ => Writes.ok_fp s _ _ _

theorem execFsubQ_runs (rd : FReg) (rs1 : FReg) (rs2 : FReg) (rm : Rm) : Runs s 4 false (execFsubQ rd rs1 rs2 rm s) :=
  runs_withMode s _ _ fun _ => Writes.ok_fp s _ _ _

theorem execFmulQ_runs (rd : FReg) (rs1 : FReg) (rs2 : FReg) (rm : Rm) : Runs s 4 false (execFmulQ rd rs1 rs2 rm s) :=
  runs_withMode s _ _ fun _ => Writes.ok_fp s _ _ _

theorem execFdivQ_runs (rd : FReg) (rs1 : FReg) (rs2 : FReg) (rm : Rm) : Runs s 4 false (execFdivQ rd rs1 rs2 rm s) :=
  runs_withMode s _ _ fun _ => Writes.ok_fp s _ _ _

theorem execFsqrtQ_runs (rd : FReg) (rs1 : FReg) (rm : Rm) : Runs s 4 false (execFsqrtQ rd rs1 rm s) :=
  runs_fpSqrt s _ _ _ _ _

theorem execFsgnjQ_runs (rd : FReg) (rs1 : FReg) (rs2 : FReg) : Runs s 4 false (execFsgnjQ rd rs1 rs2 s) :=
  runs_retire s _ _ (Writes.ok_fp s _ _ _)

theorem execFsgnjnQ_runs (rd : FReg) (rs1 : FReg) (rs2 : FReg) : Runs s 4 false (execFsgnjnQ rd rs1 rs2 s) :=
  runs_retire s _ _ (Writes.ok_fp s _ _ _)

theorem execFsgnjxQ_runs (rd : FReg) (rs1 : FReg) (rs2 : FReg) : Runs s 4 false (execFsgnjxQ rd rs1 rs2 s) :=
  runs_retire s _ _ (Writes.ok_fp s _ _ _)

theorem execFminQ_runs (rd : FReg) (rs1 : FReg) (rs2 : FReg) : Runs s 4 false (execFminQ rd rs1 rs2 s) :=
  runs_retire s _ _ (Writes.ok_fp s _ _ _)

theorem execFmaxQ_runs (rd : FReg) (rs1 : FReg) (rs2 : FReg) : Runs s 4 false (execFmaxQ rd rs1 rs2 s) :=
  runs_retire s _ _ (Writes.ok_fp s _ _ _)

theorem execFeqQ_runs (rd : XReg) (rs1 : FReg) (rs2 : FReg) : Runs s 4 false (execFeqQ rd rs1 rs2 s) :=
  runs_retire s _ _ (Writes.ok_x s _ _ _)

theorem execFltQ_runs (rd : XReg) (rs1 : FReg) (rs2 : FReg) : Runs s 4 false (execFltQ rd rs1 rs2 s) :=
  runs_retire s _ _ (Writes.ok_x s _ _ _)

theorem execFleQ_runs (rd : XReg) (rs1 : FReg) (rs2 : FReg) : Runs s 4 false (execFleQ rd rs1 rs2 s) :=
  runs_retire s _ _ (Writes.ok_x s _ _ _)

theorem execFclassQ_runs (rd : XReg) (rs1 : FReg) : Runs s 4 false (execFclassQ rd rs1 s) :=
  runs_writeReg s _ _ _

theorem execFcvtWQ_runs (rd : XReg) (rs1 : FReg) (rm : Rm) : Runs s 4 false (execFcvtWQ rd rs1 rm s) :=
  runs_withMode s _ _ fun _ => Writes.ok_x s _ _ _

theorem execFcvtWuQ_runs (rd : XReg) (rs1 : FReg) (rm : Rm) : Runs s 4 false (execFcvtWuQ rd rs1 rm s) :=
  runs_withMode s _ _ fun _ => Writes.ok_x s _ _ _

theorem execFcvtQW_runs (rd : FReg) (rs1 : XReg) (rm : Rm) : Runs s 4 false (execFcvtQW rd rs1 rm s) :=
  runs_withMode s _ _ fun _ => Writes.ok_fp s _ _ _

theorem execFcvtQWu_runs (rd : FReg) (rs1 : XReg) (rm : Rm) : Runs s 4 false (execFcvtQWu rd rs1 rm s) :=
  runs_withMode s _ _ fun _ => Writes.ok_fp s _ _ _

theorem execFmvXW_runs (rd : XReg) (rs1 : FReg) : Runs s 4 false (execFmvXW rd rs1 s) :=
  runs_writeReg s _ _ _

theorem execFmvWX_runs (rd : FReg) (rs1 : XReg) : Runs s 4 false (execFmvWX rd rs1 s) :=
  runs_retire s _ _ (Writes.ok_fp s _ _ _)

theorem execFcvtSD_runs (rd : FReg) (rs1 : FReg) (rm : Rm) : Runs s 4 false (execFcvtSD rd rs1 rm s) :=
  runs_withMode s _ _ fun _ => Writes.ok_fp s _ _ _

theorem execFcvtDS_runs (rd : FReg) (rs1 : FReg) (rm : Rm) : Runs s 4 false (execFcvtDS rd rs1 rm s) :=
  runs_withMode s _ _ fun _ => Writes.ok_fp s _ _ _

theorem execFcvtSQ_runs (rd : FReg) (rs1 : FReg) (rm : Rm) : Runs s 4 false (execFcvtSQ rd rs1 rm s) :=
  runs_withMode s _ _ fun _ => Writes.ok_fp s _ _ _

theorem execFcvtQS_runs (rd : FReg) (rs1 : FReg) (rm : Rm) : Runs s 4 false (execFcvtQS rd rs1 rm s) :=
  runs_withMode s _ _ fun _ => Writes.ok_fp s _ _ _

theorem execFcvtDQ_runs (rd : FReg) (rs1 : FReg) (rm : Rm) : Runs s 4 false (execFcvtDQ rd rs1 rm s) :=
  runs_withMode s _ _ fun _ => Writes.ok_fp s _ _ _

theorem execFcvtQD_runs (rd : FReg) (rs1 : FReg) (rm : Rm) : Runs s 4 false (execFcvtQD rd rs1 rm s) :=
  runs_withMode s _ _ fun _ => Writes.ok_fp s _ _ _

theorem execCAddi4spn_runs (rd : CReg) (imm : BitVec 8) : Runs s 2 false (execCAddi4spn rd imm s) :=
  runs_writeReg s _ _ _

theorem execCFld_runs (rd : CReg) (rs1 : CReg) (imm : BitVec 5) : Runs s 2 false (execCFld rd rs1 imm s) :=
  runs_loadF s _ _ _ _ _

theorem execCLw_runs (rd : CReg) (rs1 : CReg) (imm : BitVec 5) : Runs s 2 false (execCLw rd rs1 imm s) :=
  runs_loadX s _ _ _ _ _ _

theorem execCFlw_runs (rd : CReg) (rs1 : CReg) (imm : BitVec 5) : Runs s 2 false (execCFlw rd rs1 imm s) :=
  runs_loadF s _ _ _ _ _

theorem execCFsd_runs (rs2 : CReg) (rs1 : CReg) (imm : BitVec 5) : Runs s 2 false (execCFsd rs2 rs1 imm s) :=
  runs_storeF s _ _ _ _ _

theorem execCSw_runs (rs2 : CReg) (rs1 : CReg) (imm : BitVec 5) : Runs s 2 false (execCSw rs2 rs1 imm s) :=
  runs_storeX s _ _ _ _ _

theorem execCFsw_runs (rs2 : CReg) (rs1 : CReg) (imm : BitVec 5) : Runs s 2 false (execCFsw rs2 rs1 imm s) :=
  runs_storeF s _ _ _ _ _

theorem execCNop_runs (imm : BitVec 6) : Runs s 2 false (execCNop imm s) :=
  runs_writeReg s _ _ _

theorem execCAddi_runs (rd : XReg) (imm : BitVec 6) : Runs s 2 false (execCAddi rd imm s) :=
  runs_writeReg s _ _ _

theorem execCJal_runs (off : BitVec 11) : Runs s 2 false (execCJal off s) :=
  runs_jump s _ _ _ (even_add (offset_even _))

theorem execCLi_runs (rd : XReg) (imm : BitVec 6) : Runs s 2 false (execCLi rd imm s) :=
  runs_writeReg s _ _ _

theorem execCAddi16sp_runs (imm : BitVec 6) : Runs s 2 false (execCAddi16sp imm s) :=
  runs_writeReg s _ _ _

theorem execCLui_runs (rd : XReg) (imm : BitVec 6) : Runs s 2 false (execCLui rd imm s) :=
  runs_writeReg s _ _ _

theorem execCSrli_runs (rd : CReg) (shamt : BitVec 5) : Runs s 2 false (execCSrli rd shamt s) :=
  runs_writeReg s _ _ _

theorem execCSrai_runs (rd : CReg) (shamt : BitVec 5) : Runs s 2 false (execCSrai rd shamt s) :=
  runs_writeReg s _ _ _

theorem execCAndi_runs (rd : CReg) (imm : BitVec 6) : Runs s 2 false (execCAndi rd imm s) :=
  runs_writeReg s _ _ _

theorem execCSub_runs (rd : CReg) (rs2 : CReg) : Runs s 2 false (execCSub rd rs2 s) :=
  runs_writeReg s _ _ _

theorem execCXor_runs (rd : CReg) (rs2 : CReg) : Runs s 2 false (execCXor rd rs2 s) :=
  runs_writeReg s _ _ _

theorem execCOr_runs (rd : CReg) (rs2 : CReg) : Runs s 2 false (execCOr rd rs2 s) :=
  runs_writeReg s _ _ _

theorem execCAnd_runs (rd : CReg) (rs2 : CReg) : Runs s 2 false (execCAnd rd rs2 s) :=
  runs_writeReg s _ _ _

theorem execCJ_runs (off : BitVec 11) : Runs s 2 false (execCJ off s) :=
  runs_jump s _ _ _ (even_add (offset_even _))

theorem execCBeqz_runs (rs1 : CReg) (off : BitVec 8) : Runs s 2 false (execCBeqz rs1 off s) :=
  runs_branch s _ _ _ (offset_even _)

theorem execCBnez_runs (rs1 : CReg) (off : BitVec 8) : Runs s 2 false (execCBnez rs1 off s) :=
  runs_branch s _ _ _ (offset_even _)

theorem execCSlli_runs (rd : XReg) (shamt : BitVec 5) : Runs s 2 false (execCSlli rd shamt s) :=
  runs_writeReg s _ _ _

theorem execCFldsp_runs (rd : FReg) (imm : BitVec 6) : Runs s 2 false (execCFldsp rd imm s) :=
  runs_loadF s _ _ _ _ _

theorem execCLwsp_runs (rd : XReg) (imm : BitVec 6) : Runs s 2 false (execCLwsp rd imm s) :=
  runs_loadX s _ _ _ _ _ _

theorem execCFlwsp_runs (rd : FReg) (imm : BitVec 6) : Runs s 2 false (execCFlwsp rd imm s) :=
  runs_loadF s _ _ _ _ _

theorem execCJr_runs (rs1 : XReg) : Runs s 2 false (execCJr rs1 s) :=
  runs_jump s _ _ _ fun _ => indirectTarget_even _ _ _

theorem execCMv_runs (rd : XReg) (rs2 : XReg) : Runs s 2 false (execCMv rd rs2 s) :=
  runs_writeReg s _ _ _

theorem execCEbreak_runs : Runs s 2 false (execCEbreak s) :=
  runs_raise s _ _ _ _

theorem execCJalr_runs (rs1 : XReg) : Runs s 2 false (execCJalr rs1 s) :=
  runs_jump s _ _ _ fun _ => indirectTarget_even _ _ _

theorem execCAdd_runs (rd : XReg) (rs2 : XReg) : Runs s 2 false (execCAdd rd rs2 s) :=
  runs_writeReg s _ _ _

theorem execCFsdsp_runs (rs2 : FReg) (imm : BitVec 6) : Runs s 2 false (execCFsdsp rs2 imm s) :=
  runs_storeF s _ _ _ _ _

theorem execCSwsp_runs (rs2 : XReg) (imm : BitVec 6) : Runs s 2 false (execCSwsp rs2 imm s) :=
  runs_storeX s _ _ _ _ _

theorem execCFswsp_runs (rs2 : FReg) (imm : BitVec 6) : Runs s 2 false (execCFswsp rs2 imm s) :=
  runs_storeF s _ _ _ _ _

/-- Every instruction runs: its execution ends in a commit or in the delivery of one trap. -/
theorem exec_runs (i : Instr) (s : State) : Runs s i.len (isCsr i) (exec i s) := by
  cases i with
  | lui rd imm => exact execLui_runs s rd imm
  | auipc rd imm => exact execAuipc_runs s rd imm
  | jal rd off => exact execJal_runs s rd off
  | jalr rd rs1 imm => exact execJalr_runs s rd rs1 imm
  | beq rs1 rs2 off => exact execBeq_runs s rs1 rs2 off
  | bne rs1 rs2 off => exact execBne_runs s rs1 rs2 off
  | blt rs1 rs2 off => exact execBlt_runs s rs1 rs2 off
  | bge rs1 rs2 off => exact execBge_runs s rs1 rs2 off
  | bltu rs1 rs2 off => exact execBltu_runs s rs1 rs2 off
  | bgeu rs1 rs2 off => exact execBgeu_runs s rs1 rs2 off
  | lb rd rs1 imm => exact execLb_runs s rd rs1 imm
  | lh rd rs1 imm => exact execLh_runs s rd rs1 imm
  | lw rd rs1 imm => exact execLw_runs s rd rs1 imm
  | lbu rd rs1 imm => exact execLbu_runs s rd rs1 imm
  | lhu rd rs1 imm => exact execLhu_runs s rd rs1 imm
  | sb rs2 rs1 imm => exact execSb_runs s rs2 rs1 imm
  | sh rs2 rs1 imm => exact execSh_runs s rs2 rs1 imm
  | sw rs2 rs1 imm => exact execSw_runs s rs2 rs1 imm
  | addi rd rs1 imm => exact execAddi_runs s rd rs1 imm
  | slti rd rs1 imm => exact execSlti_runs s rd rs1 imm
  | sltiu rd rs1 imm => exact execSltiu_runs s rd rs1 imm
  | xori rd rs1 imm => exact execXori_runs s rd rs1 imm
  | ori rd rs1 imm => exact execOri_runs s rd rs1 imm
  | andi rd rs1 imm => exact execAndi_runs s rd rs1 imm
  | slli rd rs1 shamt => exact execSlli_runs s rd rs1 shamt
  | srli rd rs1 shamt => exact execSrli_runs s rd rs1 shamt
  | srai rd rs1 shamt => exact execSrai_runs s rd rs1 shamt
  | add rd rs1 rs2 => exact execAdd_runs s rd rs1 rs2
  | sub rd rs1 rs2 => exact execSub_runs s rd rs1 rs2
  | sll rd rs1 rs2 => exact execSll_runs s rd rs1 rs2
  | slt rd rs1 rs2 => exact execSlt_runs s rd rs1 rs2
  | sltu rd rs1 rs2 => exact execSltu_runs s rd rs1 rs2
  | xor rd rs1 rs2 => exact execXor_runs s rd rs1 rs2
  | srl rd rs1 rs2 => exact execSrl_runs s rd rs1 rs2
  | sra rd rs1 rs2 => exact execSra_runs s rd rs1 rs2
  | or rd rs1 rs2 => exact execOr_runs s rd rs1 rs2
  | and rd rs1 rs2 => exact execAnd_runs s rd rs1 rs2
  | fence fm pred succ rs1 rd => exact execFence_runs s fm pred succ rs1 rd
  | ecall => exact execEcall_runs s
  | ebreak => exact execEbreak_runs s
  | mul rd rs1 rs2 => exact execMul_runs s rd rs1 rs2
  | mulh rd rs1 rs2 => exact execMulh_runs s rd rs1 rs2
  | mulhsu rd rs1 rs2 => exact execMulhsu_runs s rd rs1 rs2
  | mulhu rd rs1 rs2 => exact execMulhu_runs s rd rs1 rs2
  | div rd rs1 rs2 => exact execDiv_runs s rd rs1 rs2
  | divu rd rs1 rs2 => exact execDivu_runs s rd rs1 rs2
  | rem rd rs1 rs2 => exact execRem_runs s rd rs1 rs2
  | remu rd rs1 rs2 => exact execRemu_runs s rd rs1 rs2
  | lrW aq rl rd rs1 => exact runs_lrW s aq rl rd rs1
  | scW aq rl rd rs1 rs2 => exact runs_scW s aq rl rd rs1 rs2
  | amoswapW aq rl rd rs1 rs2 => exact execAmoswapW_runs s aq rl rd rs1 rs2
  | amoaddW aq rl rd rs1 rs2 => exact execAmoaddW_runs s aq rl rd rs1 rs2
  | amoxorW aq rl rd rs1 rs2 => exact execAmoxorW_runs s aq rl rd rs1 rs2
  | amoandW aq rl rd rs1 rs2 => exact execAmoandW_runs s aq rl rd rs1 rs2
  | amoorW aq rl rd rs1 rs2 => exact execAmoorW_runs s aq rl rd rs1 rs2
  | amominW aq rl rd rs1 rs2 => exact execAmominW_runs s aq rl rd rs1 rs2
  | amomaxW aq rl rd rs1 rs2 => exact execAmomaxW_runs s aq rl rd rs1 rs2
  | amominuW aq rl rd rs1 rs2 => exact execAmominuW_runs s aq rl rd rs1 rs2
  | amomaxuW aq rl rd rs1 rs2 => exact execAmomaxuW_runs s aq rl rd rs1 rs2
  | csrrw rd csr rs1 => exact execCsrrw_runs s rd csr rs1
  | csrrs rd csr rs1 => exact execCsrrs_runs s rd csr rs1
  | csrrc rd csr rs1 => exact execCsrrc_runs s rd csr rs1
  | csrrwi rd csr uimm => exact execCsrrwi_runs s rd csr uimm
  | csrrsi rd csr uimm => exact execCsrrsi_runs s rd csr uimm
  | csrrci rd csr uimm => exact execCsrrci_runs s rd csr uimm
  | fenceI imm rs1 rd => exact execFenceI_runs s imm rs1 rd
  | flw rd rs1 imm => exact execFlw_runs s rd rs1 imm
  | fsw rs2 rs1 imm => exact execFsw_runs s rs2 rs1 imm
  | fmaddS rd rs1 rs2 rs3 rm => exact execFmaddS_runs s rd rs1 rs2 rs3 rm
  | fmsubS rd rs1 rs2 rs3 rm => exact execFmsubS_runs s rd rs1 rs2 rs3 rm
  | fnmsubS rd rs1 rs2 rs3 rm => exact execFnmsubS_runs s rd rs1 rs2 rs3 rm
  | fnmaddS rd rs1 rs2 rs3 rm => exact execFnmaddS_runs s rd rs1 rs2 rs3 rm
  | faddS rd rs1 rs2 rm => exact execFaddS_runs s rd rs1 rs2 rm
  | fsubS rd rs1 rs2 rm => exact execFsubS_runs s rd rs1 rs2 rm
  | fmulS rd rs1 rs2 rm => exact execFmulS_runs s rd rs1 rs2 rm
  | fdivS rd rs1 rs2 rm => exact execFdivS_runs s rd rs1 rs2 rm
  | fsqrtS rd rs1 rm => exact execFsqrtS_runs s rd rs1 rm
  | fsgnjS rd rs1 rs2 => exact execFsgnjS_runs s rd rs1 rs2
  | fsgnjnS rd rs1 rs2 => exact execFsgnjnS_runs s rd rs1 rs2
  | fsgnjxS rd rs1 rs2 => exact execFsgnjxS_runs s rd rs1 rs2
  | fminS rd rs1 rs2 => exact execFminS_runs s rd rs1 rs2
  | fmaxS rd rs1 rs2 => exact execFmaxS_runs s rd rs1 rs2
  | feqS rd rs1 rs2 => exact execFeqS_runs s rd rs1 rs2
  | fltS rd rs1 rs2 => exact execFltS_runs s rd rs1 rs2
  | fleS rd rs1 rs2 => exact execFleS_runs s rd rs1 rs2
  | fclassS rd rs1 => exact execFclassS_runs s rd rs1
  | fcvtWS rd rs1 rm => exact execFcvtWS_runs s rd rs1 rm
  | fcvtWuS rd rs1 rm => exact execFcvtWuS_runs s rd rs1 rm
  | fcvtSW rd rs1 rm => exact execFcvtSW_runs s rd rs1 rm
  | fcvtSWu rd rs1 rm => exact execFcvtSWu_runs s rd rs1 rm
  | fld rd rs1 imm => exact execFld_runs s rd rs1 imm
  | fsd rs2 rs1 imm => exact execFsd_runs s rs2 rs1 imm
  | fmaddD rd rs1 rs2 rs3 rm => exact execFmaddD_runs s rd rs1 rs2 rs3 rm
  | fmsubD rd rs1 rs2 rs3 rm => exact execFmsubD_runs s rd rs1 rs2 rs3 rm
  | fnmsubD rd rs1 rs2 rs3 rm => exact execFnmsubD_runs s rd rs1 rs2 rs3 rm
  | fnmaddD rd rs1 rs2 rs3 rm => exact execFnmaddD_runs s rd rs1 rs2 rs3 rm
  | faddD rd rs1 rs2 rm => exact execFaddD_runs s rd rs1 rs2 rm
  | fsubD rd rs1 rs2 rm => exact execFsubD_runs s rd rs1 rs2 rm
  | fmulD rd rs1 rs2 rm => exact execFmulD_runs s rd rs1 rs2 rm
  | fdivD rd rs1 rs2 rm => exact execFdivD_runs s rd rs1 rs2 rm
  | fsqrtD rd rs1 rm => exact execFsqrtD_runs s rd rs1 rm
  | fsgnjD rd rs1 rs2 => exact execFsgnjD_runs s rd rs1 rs2
  | fsgnjnD rd rs1 rs2 => exact execFsgnjnD_runs s rd rs1 rs2
  | fsgnjxD rd rs1 rs2 => exact execFsgnjxD_runs s rd rs1 rs2
  | fminD rd rs1 rs2 => exact execFminD_runs s rd rs1 rs2
  | fmaxD rd rs1 rs2 => exact execFmaxD_runs s rd rs1 rs2
  | feqD rd rs1 rs2 => exact execFeqD_runs s rd rs1 rs2
  | fltD rd rs1 rs2 => exact execFltD_runs s rd rs1 rs2
  | fleD rd rs1 rs2 => exact execFleD_runs s rd rs1 rs2
  | fclassD rd rs1 => exact execFclassD_runs s rd rs1
  | fcvtWD rd rs1 rm => exact execFcvtWD_runs s rd rs1 rm
  | fcvtWuD rd rs1 rm => exact execFcvtWuD_runs s rd rs1 rm
  | fcvtDW rd rs1 rm => exact execFcvtDW_runs s rd rs1 rm
  | fcvtDWu rd rs1 rm => exact execFcvtDWu_runs s rd rs1 rm
  | flq rd rs1 imm => exact execFlq_runs s rd rs1 imm
  | fsq rs2 rs1 imm => exact execFsq_runs s rs2 rs1 imm
  | fmaddQ rd rs1 rs2 rs3 rm => exact execFmaddQ_runs s rd rs1 rs2 rs3 rm
  | fmsubQ rd rs1 rs2 rs3 rm => exact execFmsubQ_runs s rd rs1 rs2 rs3 rm
  | fnmsubQ rd rs1 rs2 rs3 rm => exact execFnmsubQ_runs s rd rs1 rs2 rs3 rm
  | fnmaddQ rd rs1 rs2 rs3 rm => exact execFnmaddQ_runs s rd rs1 rs2 rs3 rm
  | faddQ rd rs1 rs2 rm => exact execFaddQ_runs s rd rs1 rs2 rm
  | fsubQ rd rs1 rs2 rm => exact execFsubQ_runs s rd rs1 rs2 rm
  | fmulQ rd rs1 rs2 rm => exact execFmulQ_runs s rd rs1 rs2 rm
  | fdivQ rd rs1 rs2 rm => exact execFdivQ_runs s rd rs1 rs2 rm
  | fsqrtQ rd rs1 rm => exact execFsqrtQ_runs s rd rs1 rm
  | fsgnjQ rd rs1 rs2 => exact execFsgnjQ_runs s rd rs1 rs2
  | fsgnjnQ rd rs1 rs2 => exact execFsgnjnQ_runs s rd rs1 rs2
  | fsgnjxQ rd rs1 rs2 => exact execFsgnjxQ_runs s rd rs1 rs2
  | fminQ rd rs1 rs2 => exact execFminQ_runs s rd rs1 rs2
  | fmaxQ rd rs1 rs2 => exact execFmaxQ_runs s rd rs1 rs2
  | feqQ rd rs1 rs2 => exact execFeqQ_runs s rd rs1 rs2
  | fltQ rd rs1 rs2 => exact execFltQ_runs s rd rs1 rs2
  | fleQ rd rs1 rs2 => exact execFleQ_runs s rd rs1 rs2
  | fclassQ rd rs1 => exact execFclassQ_runs s rd rs1
  | fcvtWQ rd rs1 rm => exact execFcvtWQ_runs s rd rs1 rm
  | fcvtWuQ rd rs1 rm => exact execFcvtWuQ_runs s rd rs1 rm
  | fcvtQW rd rs1 rm => exact execFcvtQW_runs s rd rs1 rm
  | fcvtQWu rd rs1 rm => exact execFcvtQWu_runs s rd rs1 rm
  | fmvXW rd rs1 => exact execFmvXW_runs s rd rs1
  | fmvWX rd rs1 => exact execFmvWX_runs s rd rs1
  | fcvtSD rd rs1 rm => exact execFcvtSD_runs s rd rs1 rm
  | fcvtDS rd rs1 rm => exact execFcvtDS_runs s rd rs1 rm
  | fcvtSQ rd rs1 rm => exact execFcvtSQ_runs s rd rs1 rm
  | fcvtQS rd rs1 rm => exact execFcvtQS_runs s rd rs1 rm
  | fcvtDQ rd rs1 rm => exact execFcvtDQ_runs s rd rs1 rm
  | fcvtQD rd rs1 rm => exact execFcvtQD_runs s rd rs1 rm
  | cAddi4spn rd imm => exact execCAddi4spn_runs s rd imm
  | cFld rd rs1 imm => exact execCFld_runs s rd rs1 imm
  | cLw rd rs1 imm => exact execCLw_runs s rd rs1 imm
  | cFlw rd rs1 imm => exact execCFlw_runs s rd rs1 imm
  | cFsd rs2 rs1 imm => exact execCFsd_runs s rs2 rs1 imm
  | cSw rs2 rs1 imm => exact execCSw_runs s rs2 rs1 imm
  | cFsw rs2 rs1 imm => exact execCFsw_runs s rs2 rs1 imm
  | cNop imm => exact execCNop_runs s imm
  | cAddi rd imm => exact execCAddi_runs s rd imm
  | cJal off => exact execCJal_runs s off
  | cLi rd imm => exact execCLi_runs s rd imm
  | cAddi16sp imm => exact execCAddi16sp_runs s imm
  | cLui rd imm => exact execCLui_runs s rd imm
  | cSrli rd shamt => exact execCSrli_runs s rd shamt
  | cSrai rd shamt => exact execCSrai_runs s rd shamt
  | cAndi rd imm => exact execCAndi_runs s rd imm
  | cSub rd rs2 => exact execCSub_runs s rd rs2
  | cXor rd rs2 => exact execCXor_runs s rd rs2
  | cOr rd rs2 => exact execCOr_runs s rd rs2
  | cAnd rd rs2 => exact execCAnd_runs s rd rs2
  | cJ off => exact execCJ_runs s off
  | cBeqz rs1 off => exact execCBeqz_runs s rs1 off
  | cBnez rs1 off => exact execCBnez_runs s rs1 off
  | cSlli rd shamt => exact execCSlli_runs s rd shamt
  | cFldsp rd imm => exact execCFldsp_runs s rd imm
  | cLwsp rd imm => exact execCLwsp_runs s rd imm
  | cFlwsp rd imm => exact execCFlwsp_runs s rd imm
  | cJr rs1 => exact execCJr_runs s rs1
  | cMv rd rs2 => exact execCMv_runs s rd rs2
  | cEbreak => exact execCEbreak_runs s
  | cJalr rs1 => exact execCJalr_runs s rs1
  | cAdd rd rs2 => exact execCAdd_runs s rd rs2
  | cFsdsp rs2 imm => exact execCFsdsp_runs s rs2 imm
  | cSwsp rs2 imm => exact execCSwsp_runs s rs2 imm
  | cFswsp rs2 imm => exact execCFswsp_runs s rs2 imm

end Sys2Proof.Machine
end

