-- ==== Sys2Proof/Laws/Memory.lean ====
section
/-! SUPPORT. Memory and CSR storage: read after write, and the canonical form kept by every write. -/
namespace Sys2Proof.Machine

variable {w bound : Nat}

/-- What is not listed reads 0. -/
theorem Store.read_of_lt {m : Store w} {a : Nat} (h : ∀ c ∈ m, a < c.1) : Store.read m a = 0#w := by
  induction m with
  | nil => rfl
  | cons c m ih =>
    have hc := h c (by simp)
    rw [Store.read, if_neg (by omega), ih (fun d hd => h d (by simp [hd]))]

theorem Store.wf_tail {c : Nat × BitVec w} {m : Store w} (h : Store.wf bound (c :: m)) : Store.wf bound m :=
  ⟨(List.pairwise_cons.1 h.1).2, fun d hd => h.2 d (by simp [hd])⟩

theorem Store.head_lt {c : Nat × BitVec w} {m : Store w} (h : Store.wf bound (c :: m)) : ∀ d ∈ m, c.1 < d.1 :=
  (List.pairwise_cons.1 h.1).1

/-- A write adds at most its own number to those listed. -/
theorem Store.mem_write {m : Store w} {a : Nat} {v : BitVec w} {d : Nat × BitVec w} (h : d ∈ Store.write m a v) :
    d ∈ m ∨ (d = (a, v) ∧ v ≠ 0#w) := by
  induction m with
  | nil => unfold Store.write at h; split at h <;> simp_all
  | cons c m ih =>
    unfold Store.write at h
    split at h
    · split at h
      · exact .inl h
      · rcases List.mem_cons.1 h with h | h
        · exact .inr ⟨h, ‹_›⟩
        · exact .inl h
    · split at h
      · split at h
        · exact .inl (List.mem_cons_of_mem _ h)
        · rcases List.mem_cons.1 h with h | h
          · exact .inr ⟨h, ‹_›⟩
          · exact .inl (List.mem_cons_of_mem _ h)
      · rcases List.mem_cons.1 h with h | h
        · exact .inl (by simp [h])
        · exact (ih h).imp (List.mem_cons_of_mem _) id

/-- Every write keeps the canonical form. -/
theorem Store.wf_write {m : Store w} (h : Store.wf bound m) {a : Nat} (ha : a < bound) (v : BitVec w) :
    Store.wf bound (Store.write m a v) := by
  refine ⟨?_, fun d hd => ?_⟩
  · induction m with
    | nil => unfold Store.write; split <;> simp
    | cons c m ih =>
      have hlt := Store.head_lt h
      unfold Store.write
      split
      · split
        · exact h.1
        · refine List.pairwise_cons.2 ⟨fun d hd => ?_, h.1⟩
          rcases List.mem_cons.1 hd with rfl | hd
          · assumption
          · have := hlt d hd; simp_all; omega
      · split
        · split
          · exact (Store.wf_tail h).1
          · refine List.pairwise_cons.2 ⟨fun d hd => ?_, (Store.wf_tail h).1⟩
            have := hlt d hd; simp_all
        · refine List.pairwise_cons.2 ⟨fun d hd => ?_, ih (Store.wf_tail h)⟩
          rcases Store.mem_write hd with hd | ⟨rfl, -⟩
          · exact hlt d hd
          · simp; omega
  · rcases Store.mem_write hd with hd | ⟨rfl, hv⟩
    · exact h.2 d hd
    · exact ⟨ha, hv⟩

/-- Reading after a write. -/
theorem Store.read_write {m : Store w} (h : Store.wf bound m) (a b : Nat) (v : BitVec w) :
    Store.read (Store.write m a v) b = if b = a then v else Store.read m b := by
  induction m with
  | nil =>
    unfold Store.write
    split
    · subst v; simp [Store.read]
    · simp [Store.read, eq_comm]
  | cons c m ih =>
    have hlt := Store.head_lt h
    have ih := ih (Store.wf_tail h)
    unfold Store.write
    split
    · split
      · split
        · subst v b
          exact Store.read_of_lt (fun d hd => by
            rcases List.mem_cons.1 hd with rfl | hd
            · assumption
            · have := hlt d hd; simp_all; omega)
        · rfl
      · simp [Store.read, eq_comm]
    · split
      · split
        · subst v a
          split
          · subst b; exact Store.read_of_lt hlt
          · simp [Store.read, Ne.symm ‹¬b = _›]
        · subst a
          simp only [Store.read]
          by_cases hb : b = c.1
          · simp [hb]
          · simp [hb, Ne.symm hb]
      · simp only [Store.read, ih]
        by_cases hb : c.1 = b
        · subst hb; simp; omega
        · simp [hb]

/-! ### Memory -/

variable {m : Memory}

theorem Memory.wf_nil : Memory.wf [] := ⟨List.Pairwise.nil, by simp⟩

theorem Memory.wf_writeByte (h : m.wf) (a : Word) (v : Byte) : (m.writeByte a v).wf := Store.wf_write h a.isLt v

theorem Memory.wf_writeLane (h : m.wf) (a v : Word) (be : BitVec 4) (k : Nat) : (m.writeLane a v be k).wf := by
  unfold Memory.writeLane; split
  · exact Memory.wf_writeByte h _ _
  · exact h

/-- Every memory write keeps the canonical form. -/
theorem Memory.wf_writeWord (h : m.wf) (a v : Word) (be : BitVec 4) : (m.writeWord a v be).wf :=
  Memory.wf_writeLane (Memory.wf_writeLane (Memory.wf_writeLane (Memory.wf_writeLane h _ _ _ _) _ _ _ _) _ _ _ _) _ _ _ _

theorem Memory.readByte_writeByte (h : m.wf) (a b : Word) (v : Byte) :
    (m.writeByte a v).readByte b = if b = a then v else m.readByte b := by
  rw [Memory.readByte, Memory.writeByte, Store.read_write h]
  simp only [BitVec.toNat_inj, Memory.readByte]

theorem Memory.readByte_writeLane (h : m.wf) (a v : Word) (be : BitVec 4) (k : Nat) (b : Word) :
    (m.writeLane a v be k).readByte b =
      if be.getLsbD k ∧ b = a + BitVec.ofNat 32 k then lane v k else m.readByte b := by
  unfold Memory.writeLane
  split
  · simp [Memory.readByte_writeByte h, *]
  · simp [*]

/-- The byte at `b` after a masked word write at `a`: lane `b - a` of the word if `b` is one of its four bytes and the
lane is enabled, else as before (R12). -/
theorem Memory.readByte_writeWord (h : m.wf) (a v : Word) (be : BitVec 4) (b : Word) :
    (m.writeWord a v be).readByte b =
      if (b - a).toNat < 4 ∧ be.getLsbD (b - a).toNat then lane v (b - a).toNat else m.readByte b := by
  have hw := fun k => Memory.wf_writeLane h a v be k
  unfold Memory.writeWord
  rw [Memory.readByte_writeLane (Memory.wf_writeLane (Memory.wf_writeLane (hw 0) _ _ _ _) _ _ _ _),
    Memory.readByte_writeLane (Memory.wf_writeLane (hw 0) _ _ _ _), Memory.readByte_writeLane (hw 0),
    Memory.readByte_writeLane h]
  have key : ∀ k : Nat, k < 4 → (b = a + BitVec.ofNat 32 k ↔ (b - a).toNat = k) := by
    intro k hk
    constructor
    · rintro rfl
      have : a + BitVec.ofNat 32 k - a = BitVec.ofNat 32 k := by simp [BitVec.add_comm a]
      rw [this, BitVec.toNat_ofNat]; omega
    · intro hb
      rw [← hb, BitVec.ofNat_toNat, BitVec.setWidth_eq, BitVec.add_comm, BitVec.sub_add_cancel]
  simp only [key 3 (by omega), key 2 (by omega), key 1 (by omega), key 0 (by omega)]
  generalize (b - a).toNat = n
  by_cases h0 : n = 0
  · subst h0; simp
  by_cases h1 : n = 1
  · subst h1; simp
  by_cases h2 : n = 2
  · subst h2; simp
  by_cases h3 : n = 3
  · subst h3; simp
  rw [if_neg (by simp [h3]), if_neg (by simp [h2]), if_neg (by simp [h1]), if_neg (by simp [h0]),
    if_neg (fun hh => by omega)]

/-- The four bytes of a word in memory (R83). -/
theorem Memory.lane_readWord (m : Memory) (a : Word) (k : Nat) (hk : k < 4) :
    lane (m.readWord a) k = m.readByte (a + BitVec.ofNat 32 k) := by
  have hk' : k = 0 ∨ k = 1 ∨ k = 2 ∨ k = 3 := by omega
  rcases hk' with rfl | rfl | rfl | rfl <;>
    (apply BitVec.eq_of_getLsbD_eq; intro i hi
     simp only [lane, Memory.readWord, BitVec.getLsbD_extractLsb', BitVec.getLsbD_cast, BitVec.getLsbD_append, hi,
      decide_true, Bool.true_and]
     repeat' (first | rw [if_pos (by omega)] | rw [if_neg (by omega)])
     first | simp; done | (congr 1; omega))

/-- Words are equal when their lanes are. -/
theorem lane_ext {v u : Word} (h : ∀ k < 4, lane v k = lane u k) : v = u := by
  apply BitVec.eq_of_getLsbD_eq
  intro i hi
  have := congrArg (fun b => b.getLsbD (i % 8)) (h (i / 8) (by omega))
  simp only [lane, BitVec.getLsbD_extractLsb', Nat.mod_lt _ (by decide : 0 < 8), decide_true, Bool.true_and] at this
  rwa [Nat.div_add_mod] at this

/-- A word written whole reads back. -/
theorem Memory.readWord_writeWord (h : m.wf) (a v : Word) : (m.writeWord a v 0b1111#4).readWord a = v := by
  apply lane_ext
  intro k hk
  rw [Memory.lane_readWord _ _ _ hk, Memory.readByte_writeWord h]
  have : (a + BitVec.ofNat 32 k - a).toNat = k := by
    rw [BitVec.add_comm a, BitVec.add_sub_cancel, BitVec.toNat_ofNat]; omega
  have hbe : (0b1111#4).getLsbD k = true := by
    have hk' : k = 0 ∨ k = 1 ∨ k = 2 ∨ k = 3 := by omega
    rcases hk' with rfl | rfl | rfl | rfl <;> rfl
  rw [this, if_pos ⟨hk, hbe⟩]

end Sys2Proof.Machine
end

