-- ==== Sys2Proof/Laws/Frames.lean ====
section
/-! SUPPORT. The frames of Safety.lean, established once for a commit, a trap's delivery and each request. -/
namespace Sys2Proof.Machine

variable {s : State} {e e' : Env}

/-! ### Answers -/

theorem Env.nextReply_eq_reply (e : Env) : e.nextReply = e.reply 0 := by
  cases h : e.replies <;> simp [Env.nextReply, Env.reply, h]

theorem Env.reply_issue (e : Env) (q : Request) (k : Nat) : (e.issue q).reply k = e.reply (k + 1) := by
  cases h : e.replies <;> simp [Env.reply, Env.issue, h]

theorem Env.noTrapIn_zero {e : Env} {n : Nat} (h : e.noTrapIn (n + 1)) (t : Nat) : e.nextReply ≠ .envTrap t := by
  rw [Env.nextReply_eq_reply]; exact h 0 (by omega) t

theorem Env.noTrapIn_issue {e : Env} {n : Nat} (h : e.noTrapIn (n + 1)) (q : Request) : (e.issue q).noTrapIn n :=
  fun k hk t => by rw [Env.reply_issue]; exact h (k + 1) (by omega) t

theorem Env.noTrapIn_mono {e : Env} {m n : Nat} (h : e.noTrapIn n) (hm : m ≤ n) : e.noTrapIn m :=
  fun k hk => h k (by omega)

/-! ### A commit -/

/-- A commit is what its writes say. -/
theorem retires_commit (s : State) (len : Nat) (w : Writes) (e : Env) :
    Retires s (commit len w { s with env := e }) (w.pc.getD (s.cpu.pc + BitVec.ofNat 32 len)) w.x w.f
      (accrue (w.fcsr.getD s.cpu.fcsr) w.flags) where
  outcome := rfl
  pc := rfl
  x _ := Cpu.apply_readX _ _ _ _
  f _ := Cpu.apply_readF _ _ _ _
  fcsr := rfl
  cfg := rfl
  schedule := rfl

/-- A write to x0 is no write (R41). -/
theorem Retires.x_zero {t : State} {pc : Word} {v : Word} {f : Option (FReg × BitVec 128)} {fcsr : BitVec 8}
    (h : Retires s t pc none f fcsr) : Retires s t pc (some (0#5, v)) f fcsr :=
  ⟨h.outcome, h.pc, fun r => by simpa using h.x r, h.f, h.fcsr, h.cfg, h.schedule⟩

/-! ### Requests that change nothing -/

theorem Env.Asked.refl (e : Env) : e.Asked e [] := ⟨fun _ => rfl, rfl, rfl, rfl, rfl, rfl, by simp, by simp⟩

theorem Env.asked_issue (e : Env) (q : Request) : e.Asked (e.issue q) [q] :=
  ⟨fun _ => rfl, rfl, rfl, rfl, rfl, rfl, by simp, rfl⟩

theorem Env.Asked.trans {e e' e'' : Env} {l l' : List Request} (h : e.Asked e' l) (h' : e'.Asked e'' l') :
    e.Asked e'' (l ++ l') :=
  ⟨fun b => (h'.mem b).trans (h.mem b), h'.reservation.trans h.reservation, h'.gates.trans h.gates,
    h'.sqrtModes.trans h.sqrtModes, h'.csrs.trans h.csrs, h'.onTrap.trans h.onTrap,
    by rw [h'.replies, h.replies, List.drop_drop, List.length_append],
    by rw [h'.requests, h.requests, List.append_assoc]⟩

/-- One more request after some. -/
theorem Env.Asked.issue {e e' : Env} {l : List Request} (h : e.Asked e' l) (q : Request) :
    e.Asked (e'.issue q) (l ++ [q]) := h.trans (e'.asked_issue q)

/-! ### Traps -/

theorem traps_trapAnswer (e : Env) (tr : Trap) : Traps e tr (some (outcomeOf tr e.trapAnswer)) := by
  unfold Traps Env.trapAnswer
  rw [Env.nextReply_eq_reply]
  rcases e.reply 0 with _ | _ | _ | _ | _ | a
  all_goals first | (cases a <;> rfl) | (cases e.onTrap <;> simp [outcomeOf])

/-- A trap's delivery changes no register and asks `Trap` once. -/
theorem delivers_deliver (s : State) (tr : Trap) : Delivers s (deliver tr s) tr :=
  ⟨traps_trapAnswer _ _, rfl, Env.asked_issue _ _, rfl, rfl⟩

/-! ### One request -/

theorem request_of_noTrap {α : Type} {q : Request} {k : Reply → Env → Attempt α} {n : Nat} (h : e.noTrapIn (n + 1)) :
    request q k e = k (e.reply 0) (e.issue q) := by
  rw [request_ok (Env.noTrapIn_zero h), Env.nextReply_eq_reply]

theorem readWord_of_noTrap {n : Nat} (h : e.noTrapIn (n + 1)) (a : Word) :
    readWord a e = .ok (e.wordAt 0 a) (e.issue (.readWord a)) := request_of_noTrap h

theorem writeWord_of_noTrap {n : Nat} (h : e.noTrapIn (n + 1)) (a v : Word) (be : BitVec 4) :
    writeWord a v be e = .ok () ((e.issue (.writeWord a v be)).store a v be) := request_of_noTrap h

/-- The words above the next one are the words above this one, one further. -/
theorem word_above (a : Word) (j : Nat) :
    a + 4#32 + BitVec.ofNat 32 (4 * j) = a + BitVec.ofNat 32 (4 * (j + 1)) := by
  rw [Nat.mul_add, BitVec.ofNat_add, BitVec.add_comm (BitVec.ofNat 32 (4 * j)), ← BitVec.add_assoc]

/-- The words above the least significant one are the words of the rest. -/
theorem word_of_rest (v : BitVec 128) (j : Nat) :
    (v >>> 32).extractLsb' (32 * j) 32 = v.extractLsb' (32 * (j + 1)) 32 := by
  apply BitVec.eq_of_getLsbD_eq
  intro i hi
  simp only [BitVec.getLsbD_extractLsb', BitVec.getLsbD_ushiftRight]
  congr 2; omega

theorem low_word (v : BitVec 128) : v.setWidth 32 = v.extractLsb' 0 32 := by
  apply BitVec.eq_of_getLsbD_eq
  intro i hi
  simp [BitVec.getLsbD_extractLsb', BitVec.getLsbD_setWidth]

/-- A list of words read in ascending order, all answered. -/
theorem readWords_of_noTrap (n : Nat) (a : Word) {e : Env} (h : e.noTrapIn n) :
    ∃ e', readWords n a e = .ok ((List.range n).map fun k => e.wordAt k (a + BitVec.ofNat 32 (4 * k))) e' ∧
      e.Asked e' ((List.range n).map fun k => .readWord (a + BitVec.ofNat 32 (4 * k))) := by
  induction n generalizing a e with
  | zero => exact ⟨e, rfl, Env.Asked.refl e⟩
  | succ n ih =>
    obtain ⟨e', h1, h2⟩ := ih (a + 4#32) (Env.noTrapIn_issue h (.readWord a))
    have hw : ∀ k b, (e.issue (.readWord a)).wordAt k b = e.wordAt (k + 1) b := by
      intro k b; simp [Env.wordAt, Env.reply_issue]
    refine ⟨e', ?_, ?_⟩
    · rw [readWords, readWord_of_noTrap h, Attempt.andThen_ok, h1, Attempt.andThen_ok, List.range_succ_eq_map]
      simp [word_above, hw, Function.comp_def]
    · have := (e.asked_issue (.readWord a)).trans h2
      rw [List.range_succ_eq_map]
      simpa [word_above, Function.comp_def] using this

/-! ### The shapes that ask nothing -/

variable {out : Host.Outcome State Fault Refusal} {len : Nat}

/-- An instruction that only commits its writes. -/
theorem retire_next {w : Writes} (h : out = retire len w s) :
    ∃ t, out = .next t ∧ Retires s t (w.pc.getD (s.cpu.pc + BitVec.ofNat 32 len)) w.x w.f
      (accrue (w.fcsr.getD s.cpu.fcsr) w.flags) ∧ s.env.Asked t.env [] :=
  ⟨_, h, retires_commit s len w s.env, Env.Asked.refl _⟩

/-- An instruction that writes one x register. -/
theorem writeReg_next {rd : XReg} {v v' : Word} (h : out = writeReg len rd v s) (hv : v = v') :
    ∃ t, out = .next t ∧ Retires s t (s.cpu.pc + BitVec.ofNat 32 len) (some (rd, v')) none s.cpu.fcsr ∧
      s.env.Asked t.env [] := by
  subst hv
  have := retire_next h
  simpa using this

/-- A jump. -/
theorem jump_next {rd : XReg} {a a' : Word} (h : out = jump len rd a s) (ha : a = a') :
    ∃ t, out = .next t ∧ Retires s t a' (some (rd, s.cpu.pc + BitVec.ofNat 32 len)) none s.cpu.fcsr ∧
      s.env.Asked t.env [] := by
  subst ha
  have := retire_next h
  simpa using this

/-- A branch. -/
theorem branch_next {c c' : Bool} {off off' : Word} (h : out = branch len c off s) (hc : c = c') (ho : off = off') :
    ∃ t, out = .next t ∧
      Retires s t (if c' then s.cpu.pc + off' else s.cpu.pc + BitVec.ofNat 32 len) none none s.cpu.fcsr ∧
      s.env.Asked t.env [] := by
  subst hc ho
  have := retire_next h
  cases c <;> simpa using this

/-- The mode an instruction rounds by is the one `ResolveRM` gives (R407). -/
theorem resolveRm_of_roundsBy {rm : Rm} {m : RoundingMode} (h : RoundsBy s rm m) :
    resolveRm s.cpu.fcsr rm = some m := by
  rcases h with rfl | ⟨rfl, h⟩
  · rfl
  · simp only [resolveRm, frmOf, h]; cases m <;> rfl

/-- An instruction with a resolved mode only commits its writes. -/
theorem withMode_eq_retire {rm : Rm} {m : RoundingMode} (h : RoundsBy s rm m) (inst : Word)
    (w : RoundingMode → Writes) : withMode inst rm w s = retire 4 (w m) s := by
  simp [withMode, resolveRm_of_roundsBy h, orIllegal, retire]

/-! ### The choices of the signed and unsigned extremes (R331 to R334) -/

theorem ite_slt (x y a b : Word) : (if x.slt y then a else b) = if x.toInt < y.toInt then a else b := by
  by_cases h : x.toInt < y.toInt <;> simp [BitVec.slt, h]

theorem ite_ult (x y a b : Word) : (if x.ult y then a else b) = if x.toNat < y.toNat then a else b := by
  by_cases h : x.toNat < y.toNat <;> simp [BitVec.ult, h]

/-! ### Stores -/

/-- The word an address lies in (R81). -/
theorem wordAddr_toNat (a : Word) : (wordAddr a).toNat = a.toNat - a.toNat % 4 := by
  have : wordAddr a = (a >>> 2) <<< 2 := by
    apply BitVec.eq_of_getLsbD_eq
    intro i hi
    have hmask : ∀ j < 32, (0xFFFFFFFC#32).getLsbD j = decide (2 ≤ j) := by decide
    simp only [wordAddr, BitVec.getLsbD_and, hmask i hi, BitVec.getLsbD_shiftLeft, BitVec.getLsbD_ushiftRight, hi,
      decide_true, Bool.true_and]
    by_cases h2 : i < 2
    · simp [h2]
    · have : 2 + (i - 2) = i := by omega
      simp [h2, this, show 2 ≤ i by omega]
  rw [this, BitVec.toNat_shiftLeft, BitVec.toNat_ushiftRight, Nat.shiftRight_eq_div_pow, Nat.shiftLeft_eq]
  have := a.isLt
  omega

theorem laneOf_eq (a : Word) : laneOf a = a.toNat % 4 := by simp [laneOf, BitVec.extractLsb'_toNat]

/-- The alignment an access needs, in bytes (R86). -/
def Size.alignment : Size → Nat
  | .byte => 1
  | .half => 2
  | .word | .double | .quad => 4

theorem aligned_iff (sz : Size) (a : Word) : sz.aligned a = true ↔ a.toNat % sz.alignment = 0 := by
  have h1 : a.extractLsb' 0 1 = 0#1 ↔ a.toNat % 2 = 0 := by
    rw [← BitVec.toNat_inj]; simp [BitVec.extractLsb'_toNat]
  have h2 : a.extractLsb' 0 2 = 0#2 ↔ a.toNat % 4 = 0 := by
    rw [← BitVec.toNat_inj]; simp [BitVec.extractLsb'_toNat]
  cases sz <;> simp [Size.aligned, Size.alignment, h1, h2, Nat.mod_one]

/-- The enabled lanes of a narrow store. -/
theorem getLsbD_byteEnable (sz : Size) (a : Word) {i : Nat} (hi : i < 4) :
    (byteEnable sz a).getLsbD i = (decide (laneOf a ≤ i) && decide (i < laneOf a + sz.bytes)) := by
  have hk : laneOf a < 4 := by rw [laneOf_eq]; omega
  have hbit : ∀ j, (BitVec.ofNat 4 (2 ^ sz.bytes - 1)).getLsbD j = (decide (j < 4) && decide (j < sz.bytes)) := by
    intro j
    rw [BitVec.getLsbD_ofNat, Nat.testBit_two_pow_sub_one]
  rw [byteEnable, BitVec.getLsbD_shiftLeft, hbit]
  by_cases h : laneOf a ≤ i
  · have : i - laneOf a < 4 := by omega
    simp only [hi, h, this, decide_true, Bool.true_and, not_lt.2 h, decide_false, Bool.not_false]
    congr 1; simp; omega
  · simp [h, not_le.1 h]

/-- The data lanes of a narrow store. -/
theorem lane_storeData {sz : Size} (a : Word) (v : BitVec 128) {j : Nat} (h1 : laneOf a ≤ j)
    (h2 : j < laneOf a + sz.bytes) (h4 : j < 4) : lane (storeData sz a v) j = v.extractLsb' (8 * (j - laneOf a)) 8 := by
  apply BitVec.eq_of_getLsbD_eq
  intro i hi
  simp only [lane, storeData, BitVec.getLsbD_extractLsb', BitVec.getLsbD_shiftLeft, BitVec.getLsbD_setWidth, hi,
    decide_true, Bool.true_and]
  have e1 : 8 * j + i < 32 := by omega
  have e2 : ¬ 8 * j + i < 8 * laneOf a := by omega
  have e5 : 8 * j + i - 8 * laneOf a = 8 * (j - laneOf a) + i := by omega
  have e3 : 8 * (j - laneOf a) + i < 32 := by omega
  have e4 : 8 * (j - laneOf a) + i < 8 * sz.bytes := by omega
  simp [e1, e2, e3, e4, e5]

/-- What one answered `WriteWord` of a narrow store does. -/
theorem stored_narrow {sz : Size} (hsz : sz.bytes ≤ 4) {a : Word} (ha : sz.aligned a = true) (v : BitVec 128) {e : Env}
    (hm : Memory.wf e.mem) :
    e.Stored ((e.issue (.writeWord (wordAddr a) (storeData sz a v) (byteEnable sz a))).store (wordAddr a)
      (storeData sz a v) (byteEnable sz a)) a sz.bytes v
      [.writeWord (wordAddr a) (storeData sz a v) (byteEnable sz a)] := by
  refine ⟨fun b => ?_, ?_, by simp, by simp, by simp, by simp, by simp, by simp⟩
  · have hk := laneOf_eq a
    have hfit : laneOf a + sz.bytes ≤ 4 := by
      have := (aligned_iff sz a).1 ha
      cases sz <;> simp only [Size.bytes, Size.alignment] at * <;> omega
    rw [Env.store_mem, Env.issue_mem, Memory.readByte_writeWord hm]
    have hd : (b - wordAddr a).toNat = ((b - a).toNat + laneOf a) % 2 ^ 32 := by
      have := a.isLt
      have := b.isLt
      rw [BitVec.toNat_sub, BitVec.toNat_sub, wordAddr_toNat, hk]
      omega
    have hlt := (b - a).isLt
    generalize (b - a).toNat = d at *
    by_cases hdn : d < sz.bytes
    · have h4 : (b - wordAddr a).toNat = d + laneOf a := by omega
      rw [if_pos hdn, h4, if_pos ⟨by omega, by
        rw [getLsbD_byteEnable sz a (by omega)]; simp; omega⟩, lane_storeData a v (by omega) (by omega) (by omega)]
      congr 2; omega
    · rw [if_neg hdn, if_neg]
      rintro ⟨h4, hbe⟩
      rw [getLsbD_byteEnable sz a h4] at hbe
      simp only [Bool.and_eq_true, decide_eq_true_eq] at hbe
      omega
  · rw [Env.store_reservation, Env.issue_reservation]
    cases hr : e.reservation with
    | none => rfl
    | some r =>
      by_cases h : wordAddr a = r
      · simp [Option.filter_some, Request.wordWritten, h]
      · simp [Option.filter_some, Request.wordWritten, h, Ne.symm h]

/-- One answered `WriteWord` of a whole word. -/
theorem stored_word (a w : Word) (v : BitVec 128) (hw : w = v.extractLsb' 0 32) {e : Env} (hm : Memory.wf e.mem) :
    e.Stored ((e.issue (.writeWord a w 0b1111#4)).store a w 0b1111#4) a 4 v [.writeWord a w 0b1111#4] := by
  refine ⟨fun b => ?_, ?_, by simp, by simp, by simp, by simp, by simp, by simp⟩
  · rw [Env.store_mem, Env.issue_mem, Memory.readByte_writeWord hm]
    by_cases h : (b - a).toNat < 4
    · have hbe : ∀ k < 4, (0b1111#4).getLsbD k = true := by decide
      rw [if_pos ⟨h, hbe _ h⟩, if_pos h, hw]
      apply BitVec.eq_of_getLsbD_eq
      intro i hi
      have : 8 * (b - a).toNat + i < 32 := by omega
      simp only [lane, BitVec.getLsbD_extractLsb', hi, this, decide_true, Bool.true_and, Nat.zero_add]
    · rw [if_neg (fun hh => h hh.1), if_neg h]
  · rw [Env.store_reservation, Env.issue_reservation]
    cases hr : e.reservation with
    | none => rfl
    | some r =>
      by_cases h : a = r
      · simp [Option.filter_some, Request.wordWritten, h]
      · simp [Option.filter_some, Request.wordWritten, h, Ne.symm h]

/-- Stores to adjoining bytes, one after the other. -/
theorem Env.Stored.trans {e e' e'' : Env} {a : Word} {m n : Nat} {v : BitVec 128} {l l' : List Request}
    (h : e.Stored e' a m v l) (h' : e'.Stored e'' (a + BitVec.ofNat 32 m) n (v >>> (8 * m)) l') (hmn : m + n ≤ 16) :
    e.Stored e'' a (m + n) v (l ++ l') := by
  refine ⟨fun b => ?_, ?_, h'.gates.trans h.gates, h'.sqrtModes.trans h.sqrtModes, h'.csrs.trans h.csrs,
    h'.onTrap.trans h.onTrap, by rw [h'.replies, h.replies, List.drop_drop, List.length_append],
    by rw [h'.requests, h.requests, List.append_assoc]⟩
  · rw [h'.mem, h.mem]
    have hd : (b - (a + BitVec.ofNat 32 m)).toNat = (2 ^ 32 + (b - a).toNat - m) % 2 ^ 32 := by
      have := a.isLt
      have := b.isLt
      rw [BitVec.toNat_sub, BitVec.toNat_sub, BitVec.toNat_add, BitVec.toNat_ofNat]
      omega
    have hlt := (b - a).isLt
    rw [hd]
    generalize (b - a).toNat = d at *
    by_cases h1 : d < m
    · rw [if_neg (by omega), if_pos h1, if_pos (by omega)]
    · by_cases h2 : d < m + n
      · rw [if_pos (by omega), if_pos h2]
        have : (2 ^ 32 + d - m) % 2 ^ 32 = d - m := by omega
        rw [this]
        apply BitVec.eq_of_getLsbD_eq
        intro i hi
        have : 8 * m + (8 * (d - m) + i) = 8 * d + i := by omega
        simp only [BitVec.getLsbD_extractLsb', BitVec.getLsbD_ushiftRight, this]
      · rw [if_neg (by omega), if_neg h1, if_neg h2]
  · rw [h'.reservation, h.reservation]
    cases e.reservation with
    | none => rfl
    | some r => cases h1 : l.all fun q => q.wordWritten != some r <;> simp [Option.filter_some, h1]

/-- A narrow read, answered. -/
theorem memRead_narrow {sz : Size} (hsz : sz.bytes ≤ 4) {a : Word} (ha : sz.aligned a = true) {e : Env}
    (h : e.noTrapIn 1) :
    memRead sz a e =
      .ok (((e.wordAt 0 (wordAddr a)).extractLsb' (8 * (a.toNat % 4)) (8 * sz.bytes)).setWidth 128)
        (e.issue (.readWord (wordAddr a))) := by
  have hx : ∀ (w : Word) (n : Nat), ((w >>> (8 * laneOf a)).setWidth n) = w.extractLsb' (8 * (a.toNat % 4)) n := by
    intro w n
    apply BitVec.eq_of_getLsbD_eq
    intro i hi
    simp [BitVec.getLsbD_ushiftRight, laneOf_eq, hi]
  unfold memRead
  rw [if_pos ha]
  cases sz with
  | byte | half | word => simp only [readWord_of_noTrap (n := 0) h, Attempt.andThen_ok, hx]
  | double | quad => simp [Size.bytes] at hsz

/-- A wide read, answered. -/
theorem memRead_wide {sz : Size} (hsz : 4 < sz.bytes) {a : Word} (ha : sz.aligned a = true) {e : Env}
    (h : e.noTrapIn (sz.bytes / 4)) :
    ∃ e', memRead sz a e =
        .ok (joinWords ((List.range (sz.bytes / 4)).map fun k => e.wordAt k (a + BitVec.ofNat 32 (4 * k)))) e' ∧
      e.Asked e' ((List.range (sz.bytes / 4)).map fun k => .readWord (a + BitVec.ofNat 32 (4 * k))) := by
  obtain ⟨e', h1, h2⟩ := readWords_of_noTrap (sz.bytes / 4) a h
  refine ⟨e', ?_, h2⟩
  unfold memRead
  rw [if_pos ha]
  cases sz with
  | byte | half | word => simp [Size.bytes] at hsz
  | double | quad => rw [h1, Attempt.andThen_ok]

/-- What whole words written in ascending order do, all answered (R88). -/
theorem writeWords_of_noTrap (n : Nat) (a : Word) (v : BitVec 128) {e : Env} (hn : n ≤ 4) (hm : Memory.wf e.mem)
    (h : e.noTrapIn n) :
    ∃ e', writeWords (splitWords n v) a e = .ok () e' ∧
      e.Stored e' a (4 * n) v ((List.range n).map fun k =>
        .writeWord (a + BitVec.ofNat 32 (4 * k)) (v.extractLsb' (32 * k) 32) 0b1111#4) := by
  induction n generalizing a v e with
  | zero =>
    exact ⟨e, rfl, by simp, by cases e.reservation <;> rfl, rfl, rfl, rfl, rfl, by simp, by simp⟩
  | succ n ih =>
    have h0 := stored_word a (v.setWidth 32) v (low_word v) hm
    obtain ⟨e', h1, h2⟩ := ih (a + 4#32) (v >>> 32)
      (e := (e.issue (.writeWord a (v.setWidth 32) 0b1111#4)).store a (v.setWidth 32) 0b1111#4) (by omega)
      (by rw [Env.store_mem, Env.issue_mem]; exact Memory.wf_writeWord hm _ _ _)
      (fun k hk t => by
        have := Env.noTrapIn_issue h (.writeWord a (v.setWidth 32) 0b1111#4) k hk t
        simpa [Env.reply] using this)
    refine ⟨e', ?_, ?_⟩
    · rw [splitWords, writeWords, writeWord_of_noTrap h, Attempt.andThen_ok]
      exact h1
    · have h3 := h0.trans (n := 4 * n) h2 (by omega)
      rw [List.range_succ_eq_map]
      simpa [word_above, word_of_rest, low_word, Function.comp_def, Nat.mul_add, Nat.add_comm] using h3

end Sys2Proof.Machine
end

