-- ==== Sys2Proof/Laws/Fetch.lean ====
section
/-! SUPPORT. What a fetch gives, once: the parcels, and the bits of an encoding whose bytes stand at the pc. -/
namespace Sys2Proof.Machine

/-- The environment after some requests that changed nothing of its data (R10). -/
def Env.afterAsking (e : Env) (qs : List Request) : Env :=
  { e with replies := e.replies.drop qs.length, requests := e.requests ++ qs }

theorem Env.afterAsking_nil (e : Env) : e.afterAsking [] = e := by simp [Env.afterAsking]

theorem Env.issue_afterAsking (e : Env) (q : Request) (qs : List Request) :
    (e.issue q).afterAsking qs = e.afterAsking (q :: qs) := by
  cases h : e.replies <;> simp [Env.issue, Env.afterAsking, h]

theorem Env.asked_afterAsking (e : Env) (qs : List Request) : e.Asked (e.afterAsking qs) qs :=
  ⟨fun _ => rfl, rfl, rfl, rfl, rfl, rfl, rfl, rfl⟩

theorem Env.reply_afterAsking (e : Env) (qs : List Request) (k : Nat) :
    (e.afterAsking qs).reply k = e.reply (qs.length + k) := by
  simp [Env.reply, Env.afterAsking, List.getD_eq_getElem?_getD, List.getElem?_drop]

theorem Env.usualFor_afterAsking {e : Env} {n : Nat} {qs : List Request} (h : e.usualFor (qs.length + n)) :
    (e.afterAsking qs).usualFor n := fun k hk => by
  rw [Env.reply_afterAsking]; exact h _ (by omega)

theorem Env.usualFor_mono {e : Env} {m n : Nat} (h : e.usualFor n) (hm : m ≤ n) : e.usualFor m :=
  fun k hk => h k (by omega)

/-- Parcel `k` of a word. -/
theorem parcel_readWord (m : Memory) (a : Word) (ha : a.getLsbD 0 = false) :
    (if a.getLsbD 1 then (m.readWord (wordAddr a)).extractLsb' 16 16 else (m.readWord (wordAddr a)).extractLsb' 0 16) =
      m.readByte (a + 1#32) ++ m.readByte a := by
  have h0 : a.toNat % 2 = 0 := even_of_bit ha
  have hbit : a.getLsbD 1 = decide (a.toNat / 2 % 2 = 1) := by
    simp [BitVec.getLsbD, Nat.testBit_succ, Nat.testBit_zero]
  have hsplit : ∀ w : Word,
      w.extractLsb' 16 16 = lane w 3 ++ lane w 2 ∧ w.extractLsb' 0 16 = lane w 1 ++ lane w 0 := by
    intro w
    constructor <;>
    · apply BitVec.eq_of_getLsbD_eq
      intro i hi
      simp only [lane, BitVec.getLsbD_extractLsb', BitVec.getLsbD_append]
      interval_cases i <;> rfl
  have hw := wordAddr_toNat a
  have hlt := a.isLt
  by_cases h1 : a.toNat / 2 % 2 = 1
  · rw [if_pos (by simp [hbit, h1]), (hsplit _).1, Memory.lane_readWord _ _ _ (by omega),
      Memory.lane_readWord _ _ _ (by omega)]
    congr 2 <;> (apply BitVec.eq_of_toNat_eq; simp only [BitVec.toNat_add, BitVec.toNat_ofNat, hw]; omega)
  · rw [if_neg (by rw [hbit]; simpa using h1), (hsplit _).2, Memory.lane_readWord _ _ _ (by omega),
      Memory.lane_readWord _ _ _ (by omega)]
    congr 2 <;> (apply BitVec.eq_of_toNat_eq; simp only [BitVec.toNat_add, BitVec.toNat_ofNat, hw]; omega)

/-- `FetchParcel` answered by memory (R91). -/
theorem fetchParcel_usual {e : Env} {n : Nat} (h : e.usualFor (n + 1)) {a : Word} (ha : a.getLsbD 0 = false) :
    fetchParcel a e = .ok (e.mem.readByte (a + 1#32) ++ e.mem.readByte a) (e.afterAsking [.readWord (wordAddr a)]) := by
  have hn : e.noTrapIn 1 := fun k hk t => by rw [h k (by omega)]; simp
  have hr : e.wordAt 0 (wordAddr a) = e.mem.readWord (wordAddr a) := by
    rw [Env.wordAt, h 0 (by omega)]; rfl
  rw [fetchParcel, readWord_of_noTrap hn, Attempt.andThen_ok, hr, parcel_readWord _ _ ha,
    ← Env.afterAsking_nil (e.issue _), Env.issue_afterAsking]

/-- The bits of an encoding whose bytes stand at the pc (R704). -/
theorem fetchBits_usual {e : Env} {c : Encoded} (hc : c.len = 4 ↔ c.bits.extractLsb' 0 2 = 0b11#2)
    {pc : Word} (hpc : pc.getLsbD 0 = false)
    (hb : ∀ k (h : k < c.bytes.length), e.mem.readByte (pc + BitVec.ofNat 32 k) = c.bytes[k])
    {n : Nat} (hn : n = c.len / 2) (hu : e.usualFor n) :
    fetchBits pc e = .ok (c.bits, c.len) (e.afterAsking (fetchRequests pc c.len).tail) := by
  cases c with
  | half p =>
    have hb0 := hb 0 (by simp [Encoded.bytes])
    have hb1 := hb 1 (by simp [Encoded.bytes])
    simp only [Encoded.bytes, List.getElem_cons_zero, List.getElem_cons_succ, BitVec.add_zero] at hb0 hb1
    have hlow : ¬ p.extractLsb' 0 2 = 0b11#2 := fun h => by
      have := hc.2 (by
        rw [← h]; simp only [Encoded.bits]
        apply BitVec.eq_of_getLsbD_eq; intro i hi
        interval_cases i <;> simp)
      simp [Encoded.len] at this
    obtain rfl : n = 1 := by simpa [Encoded.len] using hn
    rw [fetchBits, fetchParcel_usual (n := 0) hu hpc, Attempt.andThen_ok, hb1, hb0, parcel_of_bytes]
    rw [if_neg hlow]
    rfl
  | word w =>
    have hb0 := hb 0 (by simp [Encoded.bytes])
    have hb1 := hb 1 (by simp [Encoded.bytes])
    have hb2 := hb 2 (by simp [Encoded.bytes])
    have hb3 := hb 3 (by simp [Encoded.bytes])
    simp only [Encoded.bytes, List.getElem_cons_zero, List.getElem_cons_succ, BitVec.add_zero] at hb0 hb1 hb2 hb3
    have hlow : w.extractLsb' 0 2 = 0b11#2 := hc.1 rfl
    have hp : w.extractLsb' 8 8 ++ w.extractLsb' 0 8 = w.extractLsb' 0 16 := by
      apply BitVec.eq_of_getLsbD_eq; intro i hi
      simp only [BitVec.getLsbD_extractLsb', BitVec.getLsbD_append]
      interval_cases i <;> rfl
    have hp1 : w.extractLsb' 24 8 ++ w.extractLsb' 16 8 = w.extractLsb' 16 16 := by
      apply BitVec.eq_of_getLsbD_eq; intro i hi
      simp only [BitVec.getLsbD_extractLsb', BitVec.getLsbD_append]
      interval_cases i <;> rfl
    have hw : w.extractLsb' 16 16 ++ w.extractLsb' 0 16 = w := by
      apply BitVec.eq_of_getLsbD_eq; intro i hi
      simp only [BitVec.getLsbD_extractLsb', BitVec.getLsbD_append]
      interval_cases i <;> rfl
    have hpar : (w.extractLsb' 0 16).extractLsb' 0 2 = 0b11#2 := by
      rw [← hlow]; apply BitVec.eq_of_getLsbD_eq; intro i hi; simp
    have hpc2 : (pc + 2#32).getLsbD 0 = false := by
      simp only [BitVec.getLsbD, Nat.testBit_zero, decide_eq_false_iff_not, BitVec.toNat_add] at hpc ⊢
      simp; omega
    obtain rfl : n = 2 := by simpa [Encoded.len] using hn
    rw [fetchBits, fetchParcel_usual (n := 1) hu hpc, Attempt.andThen_ok, hb1, hb0, hp]
    rw [if_pos hpar, fetchParcel_usual (n := 0) (Env.usualFor_afterAsking hu) hpc2, Attempt.andThen_ok]
    have e2 : pc + 2#32 + 1#32 = pc + 3#32 := by rw [BitVec.add_assoc]; rfl
    show Attempt.ok ((e.mem.readByte (pc + 2#32 + 1#32) ++ e.mem.readByte (pc + 2#32) ++ w.extractLsb' 0 16), 4) _ = _
    rw [e2, hb3, hb2, hp1, hw]
    simp [Env.afterAsking, fetchRequests, Encoded.len, Encoded.bits]

/-! ### The front end up to the decode (R701 lines 1 to 4) -/

theorem Env.afterAsking_afterAsking (e : Env) (qs qs' : List Request) :
    (e.afterAsking qs).afterAsking qs' = e.afterAsking (qs ++ qs') := by
  simp [Env.afterAsking, List.drop_drop]

theorem charge_usual {e : Env} {n : Nat} (h : e.usualFor (n + 1)) (c : Category) :
    charge c e = .ok () (e.afterAsking [.charge c]) := by
  have hn : e.noTrapIn 1 := fun k hk t => by rw [h k (by omega)]; simp
  rw [charge, request_of_noTrap hn, ← Env.issue_afterAsking, Env.afterAsking_nil]

theorem pcAligned_of_fetches {s : State} {bs : List Byte} (h : Fetches s bs) :
    pcAligned s.cfg s.env.gates s.cpu.pc = true := by
  have h1 := h.even
  have h2 := h.word
  unfold pcAligned cEnabled
  cases hh : s.cpu.pc.getLsbD 1
  · rw [h1]; rfl
  · obtain ⟨h3, h4⟩ := h2 hh
    rw [h1, h3, h4]; rfl

theorem length_fetchRequests (pc : Word) (c : Encoded) : (fetchRequests pc c.len).length = c.len / 2 + 1 := by
  cases c <;> simp [fetchRequests, Encoded.len]

/-- With an encoding's bytes at the pc, the front end decodes exactly its bits. -/
theorem frontEnd_of_fetches {s : State} {c : Encoded} (hc : c.len = 4 ↔ c.bits.extractLsb' 0 2 = 0b11#2)
    (h : Fetches s c.bytes) :
    frontEnd s =
      (decodeOrRaise s.cfg s.env.gates c.bits c.len (s.env.afterAsking (fetchRequests s.cpu.pc c.len))).andThen
        fun i e => (charge (.instr (Config.costCategory i)) e).andThen fun _ e => .ok i e := by
  have hlen : c.bytes.length = c.len := by cases c <;> rfl
  have hu := h.usual
  rw [hlen] at hu
  have hu' : (s.env.afterAsking [.charge .fetch]).usualFor (c.len / 2) :=
    Env.usualFor_afterAsking (by simpa [Nat.add_comm] using hu)
  rw [frontEnd, charge_usual hu, Attempt.andThen_ok, if_pos (pcAligned_of_fetches h),
    fetchBits_usual (e := s.env.afterAsking [.charge .fetch]) hc h.even h.bytes rfl hu', Attempt.andThen_ok,
    Env.afterAsking_afterAsking]
  rfl

end Sys2Proof.Machine
end

