-- ==== Sys2Proof/Laws/Fp.lean ====
section
/-! SUPPORT. What unpacking a pattern says of it: its sign, its infinity, its number; what inverting
the sign does; and exact zero sums. -/
namespace Sys2Proof.Machine

variable {fmt : Fmt} {v : BitVec fmt.width}

theorem signOf_of_unpack_fin {neg : Bool} {m : Nat} {e : Int} (h : unpack v = .fin neg m e) : neg = signOf v := by
  unfold unpack at h
  split at h
  · split at h <;> cases h
  · split at h <;> cases h <;> rfl

theorem signOf_of_unpack_inf {neg : Bool} (h : unpack v = .inf neg) : neg = signOf v := by
  unfold unpack at h
  split at h
  · split at h <;> cases h; rfl
  · split at h <;> cases h

/-- A number is what its sign, mantissa and exponent make. -/
theorem finiteValue_eq_some {q : ℚ} (h : finiteValue v = some q) :
    ∃ neg m e, unpack v = .fin neg m e ∧ q = (if neg then -1 else 1) * (m : ℚ) * 2 ^ e := by
  unfold finiteValue at h
  split at h
  · exact ⟨_, _, _, ‹_›, by simpa using h.symm⟩
  · cases h

/-- It is zero only with its mantissa. -/
theorem number_eq_zero {neg : Bool} {m : Nat} {e : Int} :
    (if neg then -1 else 1) * (m : ℚ) * 2 ^ e = 0 ↔ m = 0 := by
  have : (2 : ℚ) ^ e ≠ 0 := by positivity
  cases neg <;> simp [this]

theorem finiteValue_eq_zero : finiteValue v = some 0 ↔ (unpack v).isZero = true := by
  constructor
  · intro h
    obtain ⟨_, _, _, hx, h⟩ := finiteValue_eq_some h
    simp [hx, Num.isZero, number_eq_zero.1 h.symm]
  · intro h
    rcases hv : unpack v with s | s | ⟨s, m, e⟩ <;> simp [hv, Num.isZero] at h
    simp [finiteValue, hv, h]

/-- An infinity is the pattern of its sign. -/
theorem infOf_of_unpack {v : BitVec fmt.width} {neg : Bool} (h : unpack v = .inf neg) : infOf fmt neg = v := by
  have hs := signOf_of_unpack_inf h
  subst hs
  have h1 : biasedExp v = 2 ^ fmt.expBits - 1 ∧ fraction v = 0 := by
    unfold unpack at h; split at h
    · split at h
      · exact ⟨‹_›, ‹_›⟩
      · cases h
    · split at h <;> cases h
  obtain ⟨h1, h2⟩ := h1
  apply BitVec.eq_of_toNat_eq
  have hv := v.isLt
  have hs : signOf v = decide (v.toNat / 2 ^ (fmt.width - 1) % 2 = 1) := by
    unfold signOf
    rw [BitVec.getLsbD, Nat.testBit_eq_decide_div_mod_eq]
  unfold biasedExp at h1; unfold fraction at h2
  rw [infOf, pack, BitVec.toNat_ofNat, hs]
  simp only [BitVec.extractLsb'_toNat, Nat.shiftRight_eq_div_pow] at h1 h2
  clear h hs
  by_cases hc : v.toNat / 2 ^ (fmt.width - 1) % 2 = 1
  · rw [decide_eq_true hc, if_pos rfl]
    cases fmt <;> simp [Fmt.width, Fmt.expBits, Fmt.fracBits, Fmt.infMagnitude] at * <;> omega
  · rw [decide_eq_false hc, if_neg (by simp)]
    cases fmt <;> simp [Fmt.width, Fmt.expBits, Fmt.fracBits, Fmt.infMagnitude] at * <;> omega

/-! ### The sign inverted (R418) -/

/-- Only the top bit changes. -/
theorem getLsbD_flipSign (i : Nat) :
    (flipSign v).getLsbD i = (v.getLsbD i ^^ decide (i = fmt.width - 1)) := by
  rw [flipSign, BitVec.getLsbD_xor, BitVec.getLsbD_ofNat, Nat.testBit_two_pow]
  congr 1
  by_cases h : i = fmt.width - 1
  · subst h; cases fmt <;> simp [Fmt.width]
  · have : ¬ fmt.width - 1 = i := fun hh => h hh.symm
    simp [h, this]

@[simp] theorem signOf_flipSign : signOf (flipSign v) = !signOf v := by simp [signOf, getLsbD_flipSign]

/-- A number or infinity is negated, and a NaN stays one of its kind. -/
theorem unpack_flipSign : unpack (flipSign v) = (unpack v).negIf true := by
  have h1 : biasedExp (flipSign v) = biasedExp v := by
    unfold biasedExp
    congr 1
    apply BitVec.eq_of_getLsbD_eq
    intro i hi
    simp only [BitVec.getLsbD_extractLsb', getLsbD_flipSign]
    have : ¬ fmt.fracBits + i = fmt.width - 1 := by
      cases fmt <;> simp [Fmt.width, Fmt.fracBits, Fmt.expBits] at hi ⊢ <;> omega
    simp [this]
  have h2 : fraction (flipSign v) = fraction v := by
    unfold fraction
    congr 1
    apply BitVec.eq_of_getLsbD_eq
    intro i hi
    simp only [BitVec.getLsbD_extractLsb', getLsbD_flipSign]
    have : ¬ 0 + i = fmt.width - 1 := by
      cases fmt <;> simp [Fmt.width, Fmt.fracBits] at hi ⊢ <;> omega
    rw [decide_eq_false this]; simp
  have h4 : (flipSign v).getLsbD (fmt.fracBits - 1) = v.getLsbD (fmt.fracBits - 1) := by
    rw [getLsbD_flipSign]
    have : ¬ fmt.fracBits - 1 = fmt.width - 1 := by
      cases fmt <;> simp [Fmt.width, Fmt.fracBits]
    simp [this]
  unfold unpack
  rw [h1, h2, signOf_flipSign, h4]
  split
  · split <;> simp [Num.negIf]
  · split <;> simp [Num.negIf]

/-! ### Exact zero sums (R412) -/

/-- A number at a smaller exponent. -/
theorem number_eq_signed (neg : Bool) (m : Nat) {e e0 : Int} (h : e0 ≤ e) :
    (if neg then -1 else 1) * (m : ℚ) * 2 ^ e = (signed neg (m * 2 ^ (e - e0).toNat) : Int) * 2 ^ e0 := by
  have : (2 : ℚ) ^ e = 2 ^ (e - e0).toNat * 2 ^ e0 := by
    rw [← zpow_natCast, ← zpow_add₀ (by norm_num)]
    congr 1; omega
  rw [this, signed]
  cases neg <;> simp <;> ring

/-- Two numbers that cancel add to a zero of the sign of R412, with no flag. -/
theorem addFinite_of_sum_zero (rm : RoundingMode) {nx ny : Bool} {mx my : Nat} {ex ey : Int}
    (h : (if nx then -1 else 1) * (mx : ℚ) * 2 ^ ex + (if ny then -1 else 1) * (my : ℚ) * 2 ^ ey = 0) :
    addFinite fmt rm nx mx ex ny my ey = (zeroOf fmt (if nx = ny then nx else decide (rm = .rdn)), noFlags) := by
  rw [number_eq_signed nx mx (min_le_left ex ey), number_eq_signed ny my (min_le_right ex ey), ← add_mul] at h
  have h2 : (2 : ℚ) ^ (min ex ey) ≠ 0 := by positivity
  have h3 := (mul_eq_zero.1 h).resolve_right h2
  have hd : (rm == .rdn) = decide (rm = .rdn) := rfl
  simp only [addFinite]
  rw [if_pos (by exact_mod_cast h3), zeroSumSign, hd, quiet]

end Sys2Proof.Machine
end

