-- ==== Sys2Proof/Laws/PerInstr.lean ====
section
/-! SUPPORT. A law of every instruction as syntax: bits [1:0] of its encoding give its length (R120). -/
namespace Sys2Proof.Laws.EncodedLength

/-- The encoding has `len` bytes, and bits [1:0] are 11 exactly in a 32-bit one (R120). -/
def Statement (i : Instr) : Prop :=
  (encode i).length = i.len ∧ (i.bits.extractLsb' 0 2 = 0b11#2 ↔ i.len = 4)

theorem of_word {i : Instr} {w : Word} (h : i.encoded = .word w)
    (hw : (Fields.opcode w).extractLsb' 0 2 = 0b11#2) : Statement i := by
  have : w.extractLsb' 0 2 = 0b11#2 := by
    rw [← hw]
    apply BitVec.eq_of_getLsbD_eq
    intro k hk
    simp only [Fields.opcode, BitVec.getLsbD_extractLsb']
    interval_cases k <;> rfl
  simp [Statement, encode, Instr.len, Instr.bits, h, Encoded.bytes, Encoded.len, Encoded.bits, this]

theorem of_half {i : Instr} {p : Parcel} (h : i.encoded = .half p) (hp : Fields.op p ≠ 0b11#2) : Statement i := by
  have : (p.setWidth 32).extractLsb' 0 2 = Fields.op p := by
    apply BitVec.eq_of_getLsbD_eq
    intro k hk
    simp only [Fields.op, BitVec.getLsbD_extractLsb', BitVec.getLsbD_setWidth]
    interval_cases k <;> rfl
  simp [Statement, encode, Instr.len, Instr.bits, h, Encoded.bytes, Encoded.len, Encoded.bits, this, hp]

theorem lui (rd : XReg) (imm : BitVec 20) : Statement (.lui rd imm) := of_word rfl (by simp)
theorem auipc (rd : XReg) (imm : BitVec 20) : Statement (.auipc rd imm) := of_word rfl (by simp)
theorem jal (rd : XReg) (off : BitVec 20) : Statement (.jal rd off) := of_word rfl (by simp)
theorem jalr (rd : XReg) (rs1 : XReg) (imm : BitVec 12) : Statement (.jalr rd rs1 imm) := of_word rfl (by simp)
theorem beq (rs1 : XReg) (rs2 : XReg) (off : BitVec 12) : Statement (.beq rs1 rs2 off) := of_word rfl (by simp)
theorem bne (rs1 : XReg) (rs2 : XReg) (off : BitVec 12) : Statement (.bne rs1 rs2 off) := of_word rfl (by simp)
theorem blt (rs1 : XReg) (rs2 : XReg) (off : BitVec 12) : Statement (.blt rs1 rs2 off) := of_word rfl (by simp)
theorem bge (rs1 : XReg) (rs2 : XReg) (off : BitVec 12) : Statement (.bge rs1 rs2 off) := of_word rfl (by simp)
theorem bltu (rs1 : XReg) (rs2 : XReg) (off : BitVec 12) : Statement (.bltu rs1 rs2 off) := of_word rfl (by simp)
theorem bgeu (rs1 : XReg) (rs2 : XReg) (off : BitVec 12) : Statement (.bgeu rs1 rs2 off) := of_word rfl (by simp)
theorem lb (rd : XReg) (rs1 : XReg) (imm : BitVec 12) : Statement (.lb rd rs1 imm) := of_word rfl (by simp)
theorem lh (rd : XReg) (rs1 : XReg) (imm : BitVec 12) : Statement (.lh rd rs1 imm) := of_word rfl (by simp)
theorem lw (rd : XReg) (rs1 : XReg) (imm : BitVec 12) : Statement (.lw rd rs1 imm) := of_word rfl (by simp)
theorem lbu (rd : XReg) (rs1 : XReg) (imm : BitVec 12) : Statement (.lbu rd rs1 imm) := of_word rfl (by simp)
theorem lhu (rd : XReg) (rs1 : XReg) (imm : BitVec 12) : Statement (.lhu rd rs1 imm) := of_word rfl (by simp)
theorem sb (rs2 : XReg) (rs1 : XReg) (imm : BitVec 12) : Statement (.sb rs2 rs1 imm) := of_word rfl (by simp)
theorem sh (rs2 : XReg) (rs1 : XReg) (imm : BitVec 12) : Statement (.sh rs2 rs1 imm) := of_word rfl (by simp)
theorem sw (rs2 : XReg) (rs1 : XReg) (imm : BitVec 12) : Statement (.sw rs2 rs1 imm) := of_word rfl (by simp)
theorem addi (rd : XReg) (rs1 : XReg) (imm : BitVec 12) : Statement (.addi rd rs1 imm) := of_word rfl (by simp)
theorem slti (rd : XReg) (rs1 : XReg) (imm : BitVec 12) : Statement (.slti rd rs1 imm) := of_word rfl (by simp)
theorem sltiu (rd : XReg) (rs1 : XReg) (imm : BitVec 12) : Statement (.sltiu rd rs1 imm) := of_word rfl (by simp)
theorem xori (rd : XReg) (rs1 : XReg) (imm : BitVec 12) : Statement (.xori rd rs1 imm) := of_word rfl (by simp)
theorem ori (rd : XReg) (rs1 : XReg) (imm : BitVec 12) : Statement (.ori rd rs1 imm) := of_word rfl (by simp)
theorem andi (rd : XReg) (rs1 : XReg) (imm : BitVec 12) : Statement (.andi rd rs1 imm) := of_word rfl (by simp)
theorem slli (rd : XReg) (rs1 : XReg) (shamt : BitVec 5) : Statement (.slli rd rs1 shamt) := of_word rfl (by simp)
theorem srli (rd : XReg) (rs1 : XReg) (shamt : BitVec 5) : Statement (.srli rd rs1 shamt) := of_word rfl (by simp)
theorem srai (rd : XReg) (rs1 : XReg) (shamt : BitVec 5) : Statement (.srai rd rs1 shamt) := of_word rfl (by simp)
theorem add (rd : XReg) (rs1 : XReg) (rs2 : XReg) : Statement (.add rd rs1 rs2) := of_word rfl (by simp)
theorem sub (rd : XReg) (rs1 : XReg) (rs2 : XReg) : Statement (.sub rd rs1 rs2) := of_word rfl (by simp)
theorem sll (rd : XReg) (rs1 : XReg) (rs2 : XReg) : Statement (.sll rd rs1 rs2) := of_word rfl (by simp)
theorem slt (rd : XReg) (rs1 : XReg) (rs2 : XReg) : Statement (.slt rd rs1 rs2) := of_word rfl (by simp)
theorem sltu (rd : XReg) (rs1 : XReg) (rs2 : XReg) : Statement (.sltu rd rs1 rs2) := of_word rfl (by simp)
theorem xor (rd : XReg) (rs1 : XReg) (rs2 : XReg) : Statement (.xor rd rs1 rs2) := of_word rfl (by simp)
theorem srl (rd : XReg) (rs1 : XReg) (rs2 : XReg) : Statement (.srl rd rs1 rs2) := of_word rfl (by simp)
theorem sra (rd : XReg) (rs1 : XReg) (rs2 : XReg) : Statement (.sra rd rs1 rs2) := of_word rfl (by simp)
theorem or (rd : XReg) (rs1 : XReg) (rs2 : XReg) : Statement (.or rd rs1 rs2) := of_word rfl (by simp)
theorem and (rd : XReg) (rs1 : XReg) (rs2 : XReg) : Statement (.and rd rs1 rs2) := of_word rfl (by simp)
theorem fence (fm : BitVec 4) (pred : BitVec 4) (succ : BitVec 4) (rs1 : XReg) (rd : XReg) : Statement (.fence fm pred succ rs1 rd) :=
  of_word rfl (by simp)
theorem ecall : Statement .ecall := of_word rfl (by decide)
theorem ebreak : Statement .ebreak := of_word rfl (by decide)
theorem mul (rd : XReg) (rs1 : XReg) (rs2 : XReg) : Statement (.mul rd rs1 rs2) := of_word rfl (by simp)
theorem mulh (rd : XReg) (rs1 : XReg) (rs2 : XReg) : Statement (.mulh rd rs1 rs2) := of_word rfl (by simp)
theorem mulhsu (rd : XReg) (rs1 : XReg) (rs2 : XReg) : Statement (.mulhsu rd rs1 rs2) := of_word rfl (by simp)
theorem mulhu (rd : XReg) (rs1 : XReg) (rs2 : XReg) : Statement (.mulhu rd rs1 rs2) := of_word rfl (by simp)
theorem div (rd : XReg) (rs1 : XReg) (rs2 : XReg) : Statement (.div rd rs1 rs2) := of_word rfl (by simp)
theorem divu (rd : XReg) (rs1 : XReg) (rs2 : XReg) : Statement (.divu rd rs1 rs2) := of_word rfl (by simp)
theorem rem (rd : XReg) (rs1 : XReg) (rs2 : XReg) : Statement (.rem rd rs1 rs2) := of_word rfl (by simp)
theorem remu (rd : XReg) (rs1 : XReg) (rs2 : XReg) : Statement (.remu rd rs1 rs2) := of_word rfl (by simp)
theorem lrW (aq : BitVec 1) (rl : BitVec 1) (rd : XReg) (rs1 : XReg) : Statement (.lrW aq rl rd rs1) :=
  of_word rfl (by simp)
theorem scW (aq : BitVec 1) (rl : BitVec 1) (rd : XReg) (rs1 : XReg) (rs2 : XReg) : Statement (.scW aq rl rd rs1 rs2) :=
  of_word rfl (by simp)
theorem amoswapW (aq : BitVec 1) (rl : BitVec 1) (rd : XReg) (rs1 : XReg) (rs2 : XReg) : Statement (.amoswapW aq rl rd rs1 rs2) :=
  of_word rfl (by simp)
theorem amoaddW (aq : BitVec 1) (rl : BitVec 1) (rd : XReg) (rs1 : XReg) (rs2 : XReg) : Statement (.amoaddW aq rl rd rs1 rs2) :=
  of_word rfl (by simp)
theorem amoxorW (aq : BitVec 1) (rl : BitVec 1) (rd : XReg) (rs1 : XReg) (rs2 : XReg) : Statement (.amoxorW aq rl rd rs1 rs2) :=
  of_word rfl (by simp)
theorem amoandW (aq : BitVec 1) (rl : BitVec 1) (rd : XReg) (rs1 : XReg) (rs2 : XReg) : Statement (.amoandW aq rl rd rs1 rs2) :=
  of_word rfl (by simp)
theorem amoorW (aq : BitVec 1) (rl : BitVec 1) (rd : XReg) (rs1 : XReg) (rs2 : XReg) : Statement (.amoorW aq rl rd rs1 rs2) :=
  of_word rfl (by simp)
theorem amominW (aq : BitVec 1) (rl : BitVec 1) (rd : XReg) (rs1 : XReg) (rs2 : XReg) : Statement (.amominW aq rl rd rs1 rs2) :=
  of_word rfl (by simp)
theorem amomaxW (aq : BitVec 1) (rl : BitVec 1) (rd : XReg) (rs1 : XReg) (rs2 : XReg) : Statement (.amomaxW aq rl rd rs1 rs2) :=
  of_word rfl (by simp)
theorem amominuW (aq : BitVec 1) (rl : BitVec 1) (rd : XReg) (rs1 : XReg) (rs2 : XReg) : Statement (.amominuW aq rl rd rs1 rs2) :=
  of_word rfl (by simp)
theorem amomaxuW (aq : BitVec 1) (rl : BitVec 1) (rd : XReg) (rs1 : XReg) (rs2 : XReg) : Statement (.amomaxuW aq rl rd rs1 rs2) :=
  of_word rfl (by simp)
theorem csrrw (rd : XReg) (csr : BitVec 12) (rs1 : XReg) : Statement (.csrrw rd csr rs1) := of_word rfl (by simp)
theorem csrrs (rd : XReg) (csr : BitVec 12) (rs1 : XReg) : Statement (.csrrs rd csr rs1) := of_word rfl (by simp)
theorem csrrc (rd : XReg) (csr : BitVec 12) (rs1 : XReg) : Statement (.csrrc rd csr rs1) := of_word rfl (by simp)
theorem csrrwi (rd : XReg) (csr : BitVec 12) (uimm : BitVec 5) : Statement (.csrrwi rd csr uimm) :=
  of_word rfl (by simp)
theorem csrrsi (rd : XReg) (csr : BitVec 12) (uimm : BitVec 5) : Statement (.csrrsi rd csr uimm) :=
  of_word rfl (by simp)
theorem csrrci (rd : XReg) (csr : BitVec 12) (uimm : BitVec 5) : Statement (.csrrci rd csr uimm) :=
  of_word rfl (by simp)
theorem fenceI (imm : BitVec 12) (rs1 : XReg) (rd : XReg) : Statement (.fenceI imm rs1 rd) := of_word rfl (by simp)
theorem flw (rd : FReg) (rs1 : XReg) (imm : BitVec 12) : Statement (.flw rd rs1 imm) := of_word rfl (by simp)
theorem fsw (rs2 : FReg) (rs1 : XReg) (imm : BitVec 12) : Statement (.fsw rs2 rs1 imm) := of_word rfl (by simp)
theorem fmaddS (rd : FReg) (rs1 : FReg) (rs2 : FReg) (rs3 : FReg) (rm : Rm) : Statement (.fmaddS rd rs1 rs2 rs3 rm) :=
  of_word rfl (by simp)
theorem fmsubS (rd : FReg) (rs1 : FReg) (rs2 : FReg) (rs3 : FReg) (rm : Rm) : Statement (.fmsubS rd rs1 rs2 rs3 rm) :=
  of_word rfl (by simp)
theorem fnmsubS (rd : FReg) (rs1 : FReg) (rs2 : FReg) (rs3 : FReg) (rm : Rm) : Statement (.fnmsubS rd rs1 rs2 rs3 rm) :=
  of_word rfl (by simp)
theorem fnmaddS (rd : FReg) (rs1 : FReg) (rs2 : FReg) (rs3 : FReg) (rm : Rm) : Statement (.fnmaddS rd rs1 rs2 rs3 rm) :=
  of_word rfl (by simp)
theorem faddS (rd : FReg) (rs1 : FReg) (rs2 : FReg) (rm : Rm) : Statement (.faddS rd rs1 rs2 rm) :=
  of_word rfl (by simp)
theorem fsubS (rd : FReg) (rs1 : FReg) (rs2 : FReg) (rm : Rm) : Statement (.fsubS rd rs1 rs2 rm) :=
  of_word rfl (by simp)
theorem fmulS (rd : FReg) (rs1 : FReg) (rs2 : FReg) (rm : Rm) : Statement (.fmulS rd rs1 rs2 rm) :=
  of_word rfl (by simp)
theorem fdivS (rd : FReg) (rs1 : FReg) (rs2 : FReg) (rm : Rm) : Statement (.fdivS rd rs1 rs2 rm) :=
  of_word rfl (by simp)
theorem fsqrtS (rd : FReg) (rs1 : FReg) (rm : Rm) : Statement (.fsqrtS rd rs1 rm) := of_word rfl (by simp)
theorem fsgnjS (rd : FReg) (rs1 : FReg) (rs2 : FReg) : Statement (.fsgnjS rd rs1 rs2) := of_word rfl (by simp)
theorem fsgnjnS (rd : FReg) (rs1 : FReg) (rs2 : FReg) : Statement (.fsgnjnS rd rs1 rs2) := of_word rfl (by simp)
theorem fsgnjxS (rd : FReg) (rs1 : FReg) (rs2 : FReg) : Statement (.fsgnjxS rd rs1 rs2) := of_word rfl (by simp)
theorem fminS (rd : FReg) (rs1 : FReg) (rs2 : FReg) : Statement (.fminS rd rs1 rs2) := of_word rfl (by simp)
theorem fmaxS (rd : FReg) (rs1 : FReg) (rs2 : FReg) : Statement (.fmaxS rd rs1 rs2) := of_word rfl (by simp)
theorem feqS (rd : XReg) (rs1 : FReg) (rs2 : FReg) : Statement (.feqS rd rs1 rs2) := of_word rfl (by simp)
theorem fltS (rd : XReg) (rs1 : FReg) (rs2 : FReg) : Statement (.fltS rd rs1 rs2) := of_word rfl (by simp)
theorem fleS (rd : XReg) (rs1 : FReg) (rs2 : FReg) : Statement (.fleS rd rs1 rs2) := of_word rfl (by simp)
theorem fclassS (rd : XReg) (rs1 : FReg) : Statement (.fclassS rd rs1) := of_word rfl (by simp)
theorem fcvtWS (rd : XReg) (rs1 : FReg) (rm : Rm) : Statement (.fcvtWS rd rs1 rm) := of_word rfl (by simp)
theorem fcvtWuS (rd : XReg) (rs1 : FReg) (rm : Rm) : Statement (.fcvtWuS rd rs1 rm) := of_word rfl (by simp)
theorem fcvtSW (rd : FReg) (rs1 : XReg) (rm : Rm) : Statement (.fcvtSW rd rs1 rm) := of_word rfl (by simp)
theorem fcvtSWu (rd : FReg) (rs1 : XReg) (rm : Rm) : Statement (.fcvtSWu rd rs1 rm) := of_word rfl (by simp)
theorem fld (rd : FReg) (rs1 : XReg) (imm : BitVec 12) : Statement (.fld rd rs1 imm) := of_word rfl (by simp)
theorem fsd (rs2 : FReg) (rs1 : XReg) (imm : BitVec 12) : Statement (.fsd rs2 rs1 imm) := of_word rfl (by simp)
theorem fmaddD (rd : FReg) (rs1 : FReg) (rs2 : FReg) (rs3 : FReg) (rm : Rm) : Statement (.fmaddD rd rs1 rs2 rs3 rm) :=
  of_word rfl (by simp)
theorem fmsubD (rd : FReg) (rs1 : FReg) (rs2 : FReg) (rs3 : FReg) (rm : Rm) : Statement (.fmsubD rd rs1 rs2 rs3 rm) :=
  of_word rfl (by simp)
theorem fnmsubD (rd : FReg) (rs1 : FReg) (rs2 : FReg) (rs3 : FReg) (rm : Rm) : Statement (.fnmsubD rd rs1 rs2 rs3 rm) :=
  of_word rfl (by simp)
theorem fnmaddD (rd : FReg) (rs1 : FReg) (rs2 : FReg) (rs3 : FReg) (rm : Rm) : Statement (.fnmaddD rd rs1 rs2 rs3 rm) :=
  of_word rfl (by simp)
theorem faddD (rd : FReg) (rs1 : FReg) (rs2 : FReg) (rm : Rm) : Statement (.faddD rd rs1 rs2 rm) :=
  of_word rfl (by simp)
theorem fsubD (rd : FReg) (rs1 : FReg) (rs2 : FReg) (rm : Rm) : Statement (.fsubD rd rs1 rs2 rm) :=
  of_word rfl (by simp)
theorem fmulD (rd : FReg) (rs1 : FReg) (rs2 : FReg) (rm : Rm) : Statement (.fmulD rd rs1 rs2 rm) :=
  of_word rfl (by simp)
theorem fdivD (rd : FReg) (rs1 : FReg) (rs2 : FReg) (rm : Rm) : Statement (.fdivD rd rs1 rs2 rm) :=
  of_word rfl (by simp)
theorem fsqrtD (rd : FReg) (rs1 : FReg) (rm : Rm) : Statement (.fsqrtD rd rs1 rm) := of_word rfl (by simp)
theorem fsgnjD (rd : FReg) (rs1 : FReg) (rs2 : FReg) : Statement (.fsgnjD rd rs1 rs2) := of_word rfl (by simp)
theorem fsgnjnD (rd : FReg) (rs1 : FReg) (rs2 : FReg) : Statement (.fsgnjnD rd rs1 rs2) := of_word rfl (by simp)
theorem fsgnjxD (rd : FReg) (rs1 : FReg) (rs2 : FReg) : Statement (.fsgnjxD rd rs1 rs2) := of_word rfl (by simp)
theorem fminD (rd : FReg) (rs1 : FReg) (rs2 : FReg) : Statement (.fminD rd rs1 rs2) := of_word rfl (by simp)
theorem fmaxD (rd : FReg) (rs1 : FReg) (rs2 : FReg) : Statement (.fmaxD rd rs1 rs2) := of_word rfl (by simp)
theorem feqD (rd : XReg) (rs1 : FReg) (rs2 : FReg) : Statement (.feqD rd rs1 rs2) := of_word rfl (by simp)
theorem fltD (rd : XReg) (rs1 : FReg) (rs2 : FReg) : Statement (.fltD rd rs1 rs2) := of_word rfl (by simp)
theorem fleD (rd : XReg) (rs1 : FReg) (rs2 : FReg) : Statement (.fleD rd rs1 rs2) := of_word rfl (by simp)
theorem fclassD (rd : XReg) (rs1 : FReg) : Statement (.fclassD rd rs1) := of_word rfl (by simp)
theorem fcvtWD (rd : XReg) (rs1 : FReg) (rm : Rm) : Statement (.fcvtWD rd rs1 rm) := of_word rfl (by simp)
theorem fcvtWuD (rd : XReg) (rs1 : FReg) (rm : Rm) : Statement (.fcvtWuD rd rs1 rm) := of_word rfl (by simp)
theorem fcvtDW (rd : FReg) (rs1 : XReg) (rm : Rm) : Statement (.fcvtDW rd rs1 rm) := of_word rfl (by simp)
theorem fcvtDWu (rd : FReg) (rs1 : XReg) (rm : Rm) : Statement (.fcvtDWu rd rs1 rm) := of_word rfl (by simp)
theorem flq (rd : FReg) (rs1 : XReg) (imm : BitVec 12) : Statement (.flq rd rs1 imm) := of_word rfl (by simp)
theorem fsq (rs2 : FReg) (rs1 : XReg) (imm : BitVec 12) : Statement (.fsq rs2 rs1 imm) := of_word rfl (by simp)
theorem fmaddQ (rd : FReg) (rs1 : FReg) (rs2 : FReg) (rs3 : FReg) (rm : Rm) : Statement (.fmaddQ rd rs1 rs2 rs3 rm) :=
  of_word rfl (by simp)
theorem fmsubQ (rd : FReg) (rs1 : FReg) (rs2 : FReg) (rs3 : FReg) (rm : Rm) : Statement (.fmsubQ rd rs1 rs2 rs3 rm) :=
  of_word rfl (by simp)
theorem fnmsubQ (rd : FReg) (rs1 : FReg) (rs2 : FReg) (rs3 : FReg) (rm : Rm) : Statement (.fnmsubQ rd rs1 rs2 rs3 rm) :=
  of_word rfl (by simp)
theorem fnmaddQ (rd : FReg) (rs1 : FReg) (rs2 : FReg) (rs3 : FReg) (rm : Rm) : Statement (.fnmaddQ rd rs1 rs2 rs3 rm) :=
  of_word rfl (by simp)
theorem faddQ (rd : FReg) (rs1 : FReg) (rs2 : FReg) (rm : Rm) : Statement (.faddQ rd rs1 rs2 rm) :=
  of_word rfl (by simp)
theorem fsubQ (rd : FReg) (rs1 : FReg) (rs2 : FReg) (rm : Rm) : Statement (.fsubQ rd rs1 rs2 rm) :=
  of_word rfl (by simp)
theorem fmulQ (rd : FReg) (rs1 : FReg) (rs2 : FReg) (rm : Rm) : Statement (.fmulQ rd rs1 rs2 rm) :=
  of_word rfl (by simp)
theorem fdivQ (rd : FReg) (rs1 : FReg) (rs2 : FReg) (rm : Rm) : Statement (.fdivQ rd rs1 rs2 rm) :=
  of_word rfl (by simp)
theorem fsqrtQ (rd : FReg) (rs1 : FReg) (rm : Rm) : Statement (.fsqrtQ rd rs1 rm) := of_word rfl (by simp)
theorem fsgnjQ (rd : FReg) (rs1 : FReg) (rs2 : FReg) : Statement (.fsgnjQ rd rs1 rs2) := of_word rfl (by simp)
theorem fsgnjnQ (rd : FReg) (rs1 : FReg) (rs2 : FReg) : Statement (.fsgnjnQ rd rs1 rs2) := of_word rfl (by simp)
theorem fsgnjxQ (rd : FReg) (rs1 : FReg) (rs2 : FReg) : Statement (.fsgnjxQ rd rs1 rs2) := of_word rfl (by simp)
theorem fminQ (rd : FReg) (rs1 : FReg) (rs2 : FReg) : Statement (.fminQ rd rs1 rs2) := of_word rfl (by simp)
theorem fmaxQ (rd : FReg) (rs1 : FReg) (rs2 : FReg) : Statement (.fmaxQ rd rs1 rs2) := of_word rfl (by simp)
theorem feqQ (rd : XReg) (rs1 : FReg) (rs2 : FReg) : Statement (.feqQ rd rs1 rs2) := of_word rfl (by simp)
theorem fltQ (rd : XReg) (rs1 : FReg) (rs2 : FReg) : Statement (.fltQ rd rs1 rs2) := of_word rfl (by simp)
theorem fleQ (rd : XReg) (rs1 : FReg) (rs2 : FReg) : Statement (.fleQ rd rs1 rs2) := of_word rfl (by simp)
theorem fclassQ (rd : XReg) (rs1 : FReg) : Statement (.fclassQ rd rs1) := of_word rfl (by simp)
theorem fcvtWQ (rd : XReg) (rs1 : FReg) (rm : Rm) : Statement (.fcvtWQ rd rs1 rm) := of_word rfl (by simp)
theorem fcvtWuQ (rd : XReg) (rs1 : FReg) (rm : Rm) : Statement (.fcvtWuQ rd rs1 rm) := of_word rfl (by simp)
theorem fcvtQW (rd : FReg) (rs1 : XReg) (rm : Rm) : Statement (.fcvtQW rd rs1 rm) := of_word rfl (by simp)
theorem fcvtQWu (rd : FReg) (rs1 : XReg) (rm : Rm) : Statement (.fcvtQWu rd rs1 rm) := of_word rfl (by simp)
theorem fmvXW (rd : XReg) (rs1 : FReg) : Statement (.fmvXW rd rs1) := of_word rfl (by simp)
theorem fmvWX (rd : FReg) (rs1 : XReg) : Statement (.fmvWX rd rs1) := of_word rfl (by simp)
theorem fcvtSD (rd : FReg) (rs1 : FReg) (rm : Rm) : Statement (.fcvtSD rd rs1 rm) := of_word rfl (by simp)
theorem fcvtDS (rd : FReg) (rs1 : FReg) (rm : Rm) : Statement (.fcvtDS rd rs1 rm) := of_word rfl (by simp)
theorem fcvtSQ (rd : FReg) (rs1 : FReg) (rm : Rm) : Statement (.fcvtSQ rd rs1 rm) := of_word rfl (by simp)
theorem fcvtQS (rd : FReg) (rs1 : FReg) (rm : Rm) : Statement (.fcvtQS rd rs1 rm) := of_word rfl (by simp)
theorem fcvtDQ (rd : FReg) (rs1 : FReg) (rm : Rm) : Statement (.fcvtDQ rd rs1 rm) := of_word rfl (by simp)
theorem fcvtQD (rd : FReg) (rs1 : FReg) (rm : Rm) : Statement (.fcvtQD rd rs1 rm) := of_word rfl (by simp)
theorem cAddi4spn (rd : CReg) (imm : BitVec 8) : Statement (.cAddi4spn rd imm) := of_half rfl (by simp)
theorem cFld (rd : CReg) (rs1 : CReg) (imm : BitVec 5) : Statement (.cFld rd rs1 imm) := of_half rfl (by simp)
theorem cLw (rd : CReg) (rs1 : CReg) (imm : BitVec 5) : Statement (.cLw rd rs1 imm) := of_half rfl (by simp)
theorem cFlw (rd : CReg) (rs1 : CReg) (imm : BitVec 5) : Statement (.cFlw rd rs1 imm) := of_half rfl (by simp)
theorem cFsd (rs2 : CReg) (rs1 : CReg) (imm : BitVec 5) : Statement (.cFsd rs2 rs1 imm) := of_half rfl (by simp)
theorem cSw (rs2 : CReg) (rs1 : CReg) (imm : BitVec 5) : Statement (.cSw rs2 rs1 imm) := of_half rfl (by simp)
theorem cFsw (rs2 : CReg) (rs1 : CReg) (imm : BitVec 5) : Statement (.cFsw rs2 rs1 imm) := of_half rfl (by simp)
theorem cNop (imm : BitVec 6) : Statement (.cNop imm) := of_half rfl (by simp)
theorem cAddi (rd : XReg) (imm : BitVec 6) : Statement (.cAddi rd imm) := of_half rfl (by simp)
theorem cJal (off : BitVec 11) : Statement (.cJal off) := of_half rfl (by simp)
theorem cLi (rd : XReg) (imm : BitVec 6) : Statement (.cLi rd imm) := of_half rfl (by simp)
theorem cAddi16sp (imm : BitVec 6) : Statement (.cAddi16sp imm) := of_half rfl (by simp)
theorem cLui (rd : XReg) (imm : BitVec 6) : Statement (.cLui rd imm) := of_half rfl (by simp)
theorem cSrli (rd : CReg) (shamt : BitVec 5) : Statement (.cSrli rd shamt) := of_half rfl (by simp)
theorem cSrai (rd : CReg) (shamt : BitVec 5) : Statement (.cSrai rd shamt) := of_half rfl (by simp)
theorem cAndi (rd : CReg) (imm : BitVec 6) : Statement (.cAndi rd imm) := of_half rfl (by simp)
theorem cSub (rd : CReg) (rs2 : CReg) : Statement (.cSub rd rs2) := of_half rfl (by simp)
theorem cXor (rd : CReg) (rs2 : CReg) : Statement (.cXor rd rs2) := of_half rfl (by simp)
theorem cOr (rd : CReg) (rs2 : CReg) : Statement (.cOr rd rs2) := of_half rfl (by simp)
theorem cAnd (rd : CReg) (rs2 : CReg) : Statement (.cAnd rd rs2) := of_half rfl (by simp)
theorem cJ (off : BitVec 11) : Statement (.cJ off) := of_half rfl (by simp)
theorem cBeqz (rs1 : CReg) (off : BitVec 8) : Statement (.cBeqz rs1 off) := of_half rfl (by simp)
theorem cBnez (rs1 : CReg) (off : BitVec 8) : Statement (.cBnez rs1 off) := of_half rfl (by simp)
theorem cSlli (rd : XReg) (shamt : BitVec 5) : Statement (.cSlli rd shamt) := of_half rfl (by simp)
theorem cFldsp (rd : FReg) (imm : BitVec 6) : Statement (.cFldsp rd imm) := of_half rfl (by simp)
theorem cLwsp (rd : XReg) (imm : BitVec 6) : Statement (.cLwsp rd imm) := of_half rfl (by simp)
theorem cFlwsp (rd : FReg) (imm : BitVec 6) : Statement (.cFlwsp rd imm) := of_half rfl (by simp)
theorem cJr (rs1 : XReg) : Statement (.cJr rs1) := of_half rfl (by simp)
theorem cMv (rd : XReg) (rs2 : XReg) : Statement (.cMv rd rs2) := of_half rfl (by simp)
theorem cEbreak : Statement .cEbreak := of_half rfl (by decide)
theorem cJalr (rs1 : XReg) : Statement (.cJalr rs1) := of_half rfl (by simp)
theorem cAdd (rd : XReg) (rs2 : XReg) : Statement (.cAdd rd rs2) := of_half rfl (by simp)
theorem cFsdsp (rs2 : FReg) (imm : BitVec 6) : Statement (.cFsdsp rs2 imm) := of_half rfl (by simp)
theorem cSwsp (rs2 : XReg) (imm : BitVec 6) : Statement (.cSwsp rs2 imm) := of_half rfl (by simp)
theorem cFswsp (rs2 : FReg) (imm : BitVec 6) : Statement (.cFswsp rs2 imm) := of_half rfl (by simp)

end Sys2Proof.Laws.EncodedLength
end

