-- ==== Sys2Proof/Laws/Refused.lean ====
section
/-! SUPPORT. What a refused request does, said once for each shared operation: the attempt traps with the environment's
value, and the requests up to the refused one are logged. -/
namespace Sys2Proof.Machine

/-- The attempt traps with the environment's value `n` after exactly the requests `qs`. -/
def Attempt.Stops {α : Type} (e : Env) (n : Nat) (qs : List Request) (a : Attempt α) : Prop :=
  ∃ e', a = .trap (.env n) e' ∧ e'.requests = e.requests ++ qs

variable {α β : Type} {e : Env} {n : Nat} {qs : List Request}

theorem request_stops {q : Request} {k : Reply → Env → Attempt α} (h : e.reply 0 = .envTrap n) :
    (request q k e).Stops e n [q] :=
  ⟨e.issue q, request_envTrap (by rw [Env.nextReply_eq_reply, h]), rfl⟩

theorem Attempt.Stops.andThen {a : Attempt α} {k : α → Env → Attempt β} (h : a.Stops e n qs) :
    (a.andThen k).Stops e n qs := by
  obtain ⟨e', rfl, h⟩ := h
  exact ⟨e', rfl, h⟩

/-- The refused request comes after some that were answered. -/
theorem Attempt.Stops.after {a : Attempt α} {k : α → Env → Attempt β} {v : α} {e' : Env} {l : List Request}
    (ha : a = .ok v e') (hl : e'.requests = e.requests ++ l) (h : (k v e').Stops e' n qs) :
    (a.andThen k).Stops e n (l ++ qs) := by
  obtain ⟨e'', h, hq⟩ := h
  exact ⟨e'', by rw [ha, Attempt.andThen_ok, h], by rw [hq, hl, List.append_assoc]⟩

/-- An instruction so stopped delivers the environment's trap and changes no register. -/
theorem finish_stops {s : State} {a : Attempt Writes} {out : Host.Outcome State Fault Refusal} {len : Nat}
    (ho : out = finish len a s) (h : a.Stops s.env n qs) : ∃ t, out = .next t ∧ StoppedBy s t qs n := by
  obtain ⟨e', rfl, h⟩ := h
  refine ⟨deliver (.env n) { s with env := e' }, ho, ?_, rfl, by simp [deliver, h]⟩
  show some (outcomeOf _ _) = _ ∨ some (outcomeOf _ _) = _
  cases ({ s with env := e' } : State).env.trapAnswer <;> simp [outcomeOf]

theorem readWord_stops (a : Word) (h : e.reply 0 = .envTrap n) : (readWord a e).Stops e n [.readWord a] :=
  request_stops h

theorem writeWord_stops (a v : Word) (be : BitVec 4) (h : e.reply 0 = .envTrap n) :
    (writeWord a v be e).Stops e n [.writeWord a v be] :=
  request_stops h

/-- A list of words read in ascending order is stopped at the refused one (R88). -/
theorem readWords_stops {k m : Nat} (a : Word) (hk : k < m) (h : e.noTrapIn k) (hr : e.reply k = .envTrap n) :
    (readWords m a e).Stops e n
      (((List.range m).map fun j => .readWord (a + BitVec.ofNat 32 (4 * j))).take (k + 1)) := by
  induction m generalizing k a e with
  | zero => omega
  | succ m ih =>
    rw [List.range_succ_eq_map, List.map_cons, List.take_succ_cons, readWords]
    cases k with
    | zero => simpa using (readWord_stops a hr).andThen
    | succ k =>
      have h1 := ih (a + 4#32) (by omega) (Env.noTrapIn_issue h (.readWord a)) (by rw [Env.reply_issue]; exact hr)
      simpa [Function.comp_def, word_above] using
        Attempt.Stops.after (k := fun w e => (readWords m (a + 4#32) e).andThen fun ws e => .ok (w :: ws) e)
          (readWord_of_noTrap h a) rfl h1.andThen

/-- A list of words written in ascending order is stopped at the refused one (R88). -/
theorem writeWords_stops {k m : Nat} (a : Word) (v : BitVec 128) (hk : k < m) (h : e.noTrapIn k)
    (hr : e.reply k = .envTrap n) :
    (writeWords (splitWords m v) a e).Stops e n (((List.range m).map fun j =>
      .writeWord (a + BitVec.ofNat 32 (4 * j)) (v.extractLsb' (32 * j) 32) 0b1111#4).take (k + 1)) := by
  induction m generalizing k a v e with
  | zero => omega
  | succ m ih =>
    rw [List.range_succ_eq_map, List.map_cons, List.take_succ_cons, splitWords, writeWords]
    cases k with
    | zero => simpa [low_word] using (writeWord_stops a (v.setWidth 32) 0b1111#4 hr).andThen
    | succ k =>
      let q := Request.writeWord a (v.setWidth 32) 0b1111#4
      have hn : ∀ j, ((e.issue q).store a (v.setWidth 32) 0b1111#4).reply j = e.reply (j + 1) := fun j =>
        (show _ = (e.issue q).reply j by simp [Env.reply]).trans (Env.reply_issue e q j)
      have h1 := ih (k := k) (a + 4#32) (v >>> 32) (e := (e.issue q).store a (v.setWidth 32) 0b1111#4) (by omega)
        (fun j hj t => by rw [hn]; exact h (j + 1) (by omega) t) (by rw [hn]; exact hr)
      simpa [Function.comp_def, word_above, word_of_rest, low_word, q] using
        Attempt.Stops.after (k := fun _ e => writeWords (splitWords m (v >>> 32)) (a + 4#32) e) (l := [q])
          (writeWord_of_noTrap h a (v.setWidth 32) 0b1111#4) (by simp [q]) h1

/-- A narrow read, refused (R84). -/
theorem memRead_narrow_stops {sz : Size} (hsz : sz.bytes ≤ 4) {a : Word} (ha : sz.aligned a = true)
    (h : e.reply 0 = .envTrap n) : (memRead sz a e).Stops e n [.readWord (wordAddr a)] := by
  unfold memRead
  rw [if_pos ha]
  cases sz with
  | byte | half | word => exact (readWord_stops _ h).andThen
  | double | quad => simp [Size.bytes] at hsz

/-- A wide read, refused at one of its words (R84, R88). -/
theorem memRead_wide_stops {sz : Size} (hsz : 4 < sz.bytes) {a : Word} (ha : sz.aligned a = true) {k : Nat}
    (hk : k < sz.bytes / 4) (h : e.noTrapIn k) (hr : e.reply k = .envTrap n) :
    (memRead sz a e).Stops e n
      (((List.range (sz.bytes / 4)).map fun j => .readWord (a + BitVec.ofNat 32 (4 * j))).take (k + 1)) := by
  unfold memRead
  rw [if_pos ha]
  cases sz with
  | byte | half | word => simp [Size.bytes] at hsz
  | double | quad => exact (readWords_stops a hk h hr).andThen

/-- A narrow write, refused (R85). -/
theorem memWrite_narrow_stops {sz : Size} (hsz : sz.bytes ≤ 4) {a : Word} (ha : sz.aligned a = true) (v : BitVec 128)
    (h : e.reply 0 = .envTrap n) :
    (memWrite sz a v e).Stops e n [.writeWord (wordAddr a) (storeData sz a v) (byteEnable sz a)] := by
  unfold memWrite
  rw [if_pos ha]
  cases sz with
  | byte | half | word => exact writeWord_stops _ _ _ h
  | double | quad => simp [Size.bytes] at hsz

/-- A wide write, refused at one of its words (R85, R88). -/
theorem memWrite_wide_stops {sz : Size} (hsz : 4 < sz.bytes) {a : Word} (ha : sz.aligned a = true) (v : BitVec 128)
    {k : Nat} (hk : k < sz.bytes / 4) (h : e.noTrapIn k) (hr : e.reply k = .envTrap n) :
    (memWrite sz a v e).Stops e n (((List.range (sz.bytes / 4)).map fun j =>
      .writeWord (a + BitVec.ofNat 32 (4 * j)) (v.extractLsb' (32 * j) 32) 0b1111#4).take (k + 1)) := by
  unfold memWrite
  rw [if_pos ha]
  cases sz with
  | byte | half | word => simp [Size.bytes] at hsz
  | double | quad => exact writeWords_stops a v hk h hr

end Sys2Proof.Machine
end

