-- ==== Sys2Proof/Laws/Step.lean ====
section
/-! SUPPORT. What a step can do, said once (`step_runs`): after the embedder's turn it commits or delivers one trap, its
requests before that are charges and an instruction's, and what it commits keeps the bounds of the registers. -/
namespace Sys2Proof.Machine

/-- Every request but `Trap`. -/
def Request.beforeTrap : Request → Bool
  | .trap _ => false
  | .charge _ | .readWord _ | .writeWord _ _ _ | .loadReserved _ | .storeReserved _ _ | .csrRead _ _ | .csrWrite _ _ _
  | .sqrtMode _ => true

theorem Request.beforeTrap_of_ofInstr {q : Request} (h : q.ofInstr = true) : q.beforeTrap = true := by
  cases q <;> first | rfl | cases h

theorem Request.beforeTrap_of_ofFrontEnd {q : Request} (h : q.ofFrontEnd = true) : q.beforeTrap = true := by
  cases q <;> first | rfl | cases h

theorem Env.Reach.mono {P Q : Request → Bool} (hPQ : ∀ q, P q = true → Q q = true) {e e' : Env} {o : Option Nat}
    (h : Env.Reach P e o e') : Env.Reach Q e o e' := by
  induction h with
  | refl => exact .refl
  | issue _ q hq hr ih => exact ih.issue q (hPQ q hq) hr
  | refused _ q hq hc n hr ih => exact ih.refused q (hPQ q hq) hc n hr
  | store _ a v be ih => exact ih.store a v be
  | reserve _ a ha ih => exact ih.reserve a ha
  | release _ ih => exact ih.release
  | setCsr _ n v ih => exact ih.setCsr n v

theorem Attempt.Reaches.mono {α : Type} {P Q : Request → Bool} (hPQ : ∀ q, P q = true → Q q = true) {e : Env}
    {a : Attempt α} (h : a.Reaches P e) : a.Reaches Q e := by
  cases a <;> exact Env.Reach.mono hPQ h

/-- The environment an attempt started with is no part of how it is finished. -/
theorem finish_with_env (len : Nat) (a : Attempt Writes) (s : State) (e : Env) :
    finish len a { s with env := e } = finish len a s := by
  cases a <;> rfl

/-- A step is the embedder's turn, then one attempt: it commits or traps, it never asked `Trap` before, and what it commits
is allowed to the instruction that the front end gave. -/
theorem step_runs (s : State) : ∃ (len : Nat) (a : Attempt Writes), step s = finish len a (beginStep s) ∧
    a.Reaches Request.beforeTrap (beginStep s).env ∧
    ∀ w e, a = .ok w e → ∃ i e1, frontEnd (beginStep s) = .ok i e1 ∧ len = i.len ∧ w.Ok (beginStep s) (isCsr i) := by
  have hf := frontEnd_reaches (beginStep s)
  unfold step stepFrom
  cases hi : frontEnd (beginStep s) with
  | ok i e =>
    rw [hi] at hf
    obtain ⟨a, h, hr, hw⟩ := exec_runs i { beginStep s with env := e }
    refine ⟨i.len, a, h.trans (finish_with_env _ _ _ _), ?_, fun w e' h => ⟨i, e, rfl, rfl, ?_⟩⟩
    · exact .after (Env.Reach.mono (fun _ => Request.beforeTrap_of_ofFrontEnd) hf)
        (hr.mono fun _ => Request.beforeTrap_of_ofInstr)
    · have := hw w e' h
      exact ⟨this.f, this.pc, this.fcsr⟩
  | trap t e =>
    rw [hi] at hf
    refine ⟨4, .trap t e, rfl, ?_, fun w e' h => by cases h⟩
    exact hf.mono fun _ => Request.beforeTrap_of_ofFrontEnd

end Sys2Proof.Machine
end

