-- ==== Sys2Proof/Tests/Slice0.lean ====
section
/-! SUPPORT. The model's own tests: ill-formed terms that WellFormed refuses, words of the spec that decode, single steps
whose results the spec gives, and for each statement with hypotheses a state and operands that meet them. -/
namespace Sys2Proof.Tests
open Sys2Proof Sys2Proof.Machine

-- One after the other: each of these waits for the kernel, and a thread for each would not fit in memory.
set_option Elab.async false

/-! ### Ill-formed terms (30_encoding.md, 48_compressed.md R604) -/

theorem test_wf_cAddi4spn_zero : (Instr.cAddi4spn 3#3 0#8).wf = false := by decide
theorem test_wf_cAddi_x0 : (Instr.cAddi 0#5 1#6).wf = false := by decide
theorem test_wf_cAddi16sp_zero : (Instr.cAddi16sp 0#6).wf = false := by decide
theorem test_wf_cLui_sp : (Instr.cLui 2#5 1#6).wf = false := by decide
theorem test_wf_cLui_zero : (Instr.cLui 1#5 0#6).wf = false := by decide
theorem test_wf_cLwsp_x0 : (Instr.cLwsp 0#5 1#6).wf = false := by decide
theorem test_wf_cJr_x0 : (Instr.cJr 0#5).wf = false := by decide
theorem test_wf_cJalr_x0 : (Instr.cJalr 0#5).wf = false := by decide
theorem test_wf_cMv_x0 : (Instr.cMv 1#5 0#5).wf = false := by decide
theorem test_wf_cAdd_x0 : (Instr.cAdd 1#5 0#5).wf = false := by decide
/-- HINT forms and an ignored field are well formed (R612, R613, R628). -/
theorem test_wf_hints : (Instr.cNop 5#6).wf && (Instr.cAddi 1#5 0#6).wf && (Instr.cSlli 0#5 0#5).wf &&
    (Instr.cLui 0#5 1#6).wf && (Instr.cMv 0#5 1#5).wf = true := by decide

/-! ### Decoding words written out from the spec -/

/-- 40_base_integer.md: the words of the examples of R205 to R208 and R213. -/
theorem test_decode_jumps :
    decode32 0x123452B7#32 = .ok (.lui 5#5 0x12345#20) ∧ decode32 0x00001317#32 = .ok (.auipc 6#5 1#20) ∧
    decode32 0x008000EF#32 = .ok (.jal 1#5 4#20) ∧ decode32 0x003280E7#32 = .ok (.jalr 1#5 5#5 3#12) ∧
    decode32 0x00208863#32 = .ok (.beq 1#5 2#5 8#12) ∧ decode32 0xFE209CE3#32 = .ok (.bne 1#5 2#5 0xFFC#12) := by
  refine ⟨?_, ?_, ?_, ?_, ?_, ?_⟩ <;> rfl
/-- R215, R220, R223, R230, R231, R233, R234. -/
theorem test_decode_integer :
    decode32 0x00110183#32 = .ok (.lb 3#5 2#5 1#12) ∧ decode32 0x003101A3#32 = .ok (.sb 3#5 2#5 3#12) ∧
    decode32 0xFFF00093#32 = .ok (.addi 1#5 0#5 0xFFF#12) ∧ decode32 0x00415093#32 = .ok (.srli 1#5 2#5 4#5) ∧
    decode32 0x40415093#32 = .ok (.srai 1#5 2#5 4#5) ∧ decode32 0x402081B3#32 = .ok (.sub 3#5 1#5 2#5) ∧
    decode32 0x002091B3#32 = .ok (.sll 3#5 1#5 2#5) := by
  refine ⟨?_, ?_, ?_, ?_, ?_, ?_, ?_⟩ <;> rfl
/-- R242 to R244, R363: a FENCE with all of IORW on both sides, the two exact SYSTEM words, FENCE.I. -/
theorem test_decode_system :
    decode32 0x0FF0000F#32 = .ok (.fence 0#4 15#4 15#4 0#5 0#5) ∧ decode32 0x00000073#32 = .ok .ecall ∧
    decode32 0x00100073#32 = .ok .ebreak ∧ decode32 0x0000100F#32 = .ok (.fenceI 0#12 0#5 0#5) := by
  refine ⟨?_, ?_, ?_, ?_⟩ <;> rfl
/-- R301, R303, R305 (M); R323, R324, R326, R331 (A); R357, R358, R360 (Zicsr). -/
theorem test_decode_m_a_zicsr :
    decode32 0x022081B3#32 = .ok (.mul 3#5 1#5 2#5) ∧ decode32 0x0220A1B3#32 = .ok (.mulhsu 3#5 1#5 2#5) ∧
    decode32 0x0220C1B3#32 = .ok (.div 3#5 1#5 2#5) ∧ decode32 0x100120AF#32 = .ok (.lrW 0#1 0#1 1#5 2#5) ∧
    decode32 0x184121AF#32 = .ok (.scW 0#1 0#1 3#5 2#5 4#5) ∧
    decode32 0x084121AF#32 = .ok (.amoswapW 0#1 0#1 3#5 2#5 4#5) ∧
    decode32 0x804121AF#32 = .ok (.amominW 0#1 0#1 3#5 2#5 4#5) ∧
    decode32 0x003312F3#32 = .ok (.csrrw 5#5 3#12 6#5) ∧ decode32 0x001022F3#32 = .ok (.csrrs 5#5 1#12 0#5) ∧
    decode32 0x0021D2F3#32 = .ok (.csrrwi 5#5 2#12 3#5) := by
  refine ⟨?_, ?_, ?_, ?_, ?_, ?_, ?_, ?_, ?_, ?_⟩ <;> rfl
/-- 95_test_vectors.md scenarios 4 and 5, and fields written out by hand from R134 and R144: FADD.S and FDIV.S with RNE;
FMADD.D f1, f2, f3, f4, dyn; FCVT.D.S f1, f2, rne; FMV.X.W x1, f2; FSQ f3, 16(x2). -/
theorem test_decode_fp :
    decode32 0x002081D3#32 = .ok (.faddS 3#5 1#5 2#5 (.mode .rne)) ∧
    decode32 0x182081D3#32 = .ok (.fdivS 3#5 1#5 2#5 (.mode .rne)) ∧
    decode32 (0b00100#5 ++ 0b01#2 ++ 0b00011#5 ++ 0b00010#5 ++ 0b111#3 ++ 0b00001#5 ++ 0b1000011#7) =
      .ok (.fmaddD 1#5 2#5 3#5 4#5 .dyn) ∧
    decode32 (0b01000#5 ++ 0b01#2 ++ 0b00000#5 ++ 0b00010#5 ++ 0b000#3 ++ 0b00001#5 ++ 0b1010011#7) =
      .ok (.fcvtDS 1#5 2#5 (.mode .rne)) ∧
    decode32 (0b11100#5 ++ 0b00#2 ++ 0b00000#5 ++ 0b00010#5 ++ 0b000#3 ++ 0b00001#5 ++ 0b1010011#7) =
      .ok (.fmvXW 1#5 2#5) ∧
    decode32 (0b0000000#7 ++ 0b00011#5 ++ 0b00010#5 ++ 0b100#3 ++ 0b10000#5 ++ 0b0100111#7) = .ok (.fsq 3#5 2#5 16#12) := by
  refine ⟨?_, ?_, ?_, ?_, ?_, ?_⟩ <;> rfl
/-- 48_compressed.md: the parcels of the examples of R605, R613, R616, R625, R626, R630, R634, R636, R639. -/
theorem test_decode_compressed :
    decode16 0x0800#16 = .ok (.cAddi4spn 0#3 4#8) ∧ decode16 0x0085#16 = .ok (.cAddi 1#5 1#6) ∧
    decode16 0x713D#16 = .ok (.cAddi16sp 0x3E#6) ∧ decode16 0xA021#16 = .ok (.cJ 4#11) ∧
    decode16 0xDC7D#16 = .ok (.cBeqz 0#3 0xFF#8) ∧ decode16 0x4092#16 = .ok (.cLwsp 1#5 1#6) ∧
    decode16 0x9002#16 = .ok .cEbreak ∧ decode16 0x952E#16 = .ok (.cAdd 10#5 11#5) ∧
    decode16 0xE206#16 = .ok (.cFswsp 1#5 1#6) := by
  refine ⟨?_, ?_, ?_, ?_, ?_, ?_, ?_, ?_, ?_⟩ <;> rfl
/-- The host's numbering: the first parcel is bits 15:0, what lies above `nbits` is 0. -/
theorem test_decodeTableWord : decodeTableWord 16 0x0085 = some (.cAddi 1#5 1#6) ∧
    decodeTableWord 32 0x00108133 = some (.add 2#5 1#5 1#5) ∧ decodeTableWord 16 0 = none := by
  refine ⟨?_, ?_, ?_⟩ <;> rfl

/-! ### Single steps -/

/-- The state at instantiation with some x registers. -/
def base (xs : List (XReg × Word)) : State :=
  { State.reset with cpu := xs.foldl (fun c p => c.writeX p.1 p.2) Cpu.reset }

/-- The same with some words of memory. -/
def withWords (s : State) (ws : List (Word × Word)) : State :=
  { s with env := { s.env with mem := ws.foldl (fun m p => m.writeWord p.1 p.2 0b1111#4) s.env.mem } }

/-- The same with some f registers. -/
def withF (s : State) (fs : List (FReg × BitVec 128)) : State :=
  { s with cpu := fs.foldl (fun c p => c.writeF p.1 p.2) s.cpu }

/-- The same with scripted answers. -/
def withReplies (s : State) (r : List Reply) : State := { s with env := { s.env with replies := r } }

/-- The same at a pc. -/
def atPc (s : State) (pc : Word) : State := { s with cpu := { s.cpu with pc := pc } }

/-- The state after a step that ran. -/
def after : Host.Outcome State Fault Refusal → State
  | .next t => t
  | .fault _ | .refused _ => State.reset

/-- R223, R41: wrapping below 0, and a write to x0 dropped. -/
theorem test_addi : (after (exec (.addi 1#5 0#5 0xFFF#12) (base []))).cpu.readX 1#5 = 0xFFFFFFFF#32 ∧
    (after (exec (.addi 0#5 0#5 0xFFF#12) (base []))).cpu = { Cpu.reset with pc := 4#32 } := by decide +kernel
/-- R231. -/
theorem test_srai : (after (exec (.srai 1#5 2#5 4#5) (base [(2#5, 0x80000010#32)]))).cpu.readX 1#5 = 0xF8000001#32 := by
  decide +kernel
/-- R234: only the low five bits of the amount. -/
theorem test_sll : (after (exec (.sll 3#5 1#5 2#5) (base [(1#5, 1#32), (2#5, 33#32)]))).cpu.readX 3#5 = 2#32 := by
  decide +kernel
/-- R208: the target comes from the old register, bit 0 dropped, where the link goes to the same register. -/
theorem test_jalr : let t := after (exec (.jalr 5#5 5#5 3#12) (atPc (base [(5#5, 0x2000#32)]) 0x100#32))
    t.cpu.readX 5#5 = 0x104#32 ∧ t.cpu.pc = 0x2002#32 := by decide +kernel
/-- R210: a branch backwards. -/
theorem test_bne : (after (exec (.bne 1#5 2#5 0xFFC#12) (atPc (base [(1#5, 1#32)]) 0x208#32))).cpu.pc = 0x200#32 := by
  decide +kernel
/-- R215: the lane, and the sign. -/
theorem test_lb : (after (exec (.lb 3#5 2#5 1#12)
    (withWords (base [(2#5, 0x1000#32)]) [(0x1000#32,
      0x11228044#32)]))).cpu.readX 3#5 = 0xFFFFFF80#32 := by decide +kernel
/-- R220: one byte of the word. -/
theorem test_sb : let t := after (exec (.sb 3#5 2#5 3#12)
      (withWords (base [(2#5, 0x1000#32), (3#5, 0xAB#32)]) [(0x1000#32, 0x11223344#32)]))
    t.env.mem.readWord 0x1000#32 = 0xAB223344#32 ∧
      t.env.requests = [.writeWord 0x1000#32 0xAB000000#32 0b1000#4] := by decide +kernel
/-- R87. -/
theorem test_lw_misaligned : (after (exec (.lw 3#5 2#5 1#12) (base [(2#5, 0x1000#32)]))).outcome =
    some (.trapped (.core .loadAddressMisaligned 0x1001#32)) := by decide +kernel
/-- R303, R305, R307. -/
theorem test_mulDiv : let s := base [(1#5, 0xFFFFFFF9#32), (2#5, 2#32), (4#5, 0xFFFFFFFF#32)]
    (after (exec (.div 3#5 1#5 2#5) s)).cpu.readX 3#5 = 0xFFFFFFFD#32 ∧
    (after (exec (.rem 3#5 1#5 2#5) s)).cpu.readX 3#5 = 0xFFFFFFFF#32 ∧
    (after (exec (.div 3#5 1#5 0#5) s)).cpu.readX 3#5 = 0xFFFFFFFF#32 ∧
    (after (exec (.mulhsu 3#5 4#5 2#5) s)).cpu.readX 3#5 = 0xFFFFFFFF#32 := by decide +kernel
/-- 95_test_vectors.md scenario 3: LR.W then SC.W; a second SC.W fails. -/
theorem test_lr_sc : let s := withWords (base [(2#5, 0x800#32), (4#5, 0x55#32)]) [(0x800#32, 0x11#32)]
    let t := after (exec (.lrW 0#1 0#1 1#5 2#5) s)
    let u := after (exec (.scW 0#1 0#1 3#5 2#5 4#5) t)
    t.cpu.readX 1#5 = 0x11#32 ∧ t.env.reservation = some 0x800#32 ∧ u.cpu.readX 3#5 = 0#32 ∧
    u.env.mem.readWord 0x800#32 = 0x55#32 ∧ u.env.reservation = none ∧
    (after (exec (.scW 0#1 0#1 3#5 2#5 4#5) u)).cpu.readX 3#5 = 1#32 := by decide +kernel
/-- R331: the signed minimum. -/
theorem test_amomin : let t := after (exec (.amominW 0#1 0#1 3#5 2#5 4#5)
      (withWords (base [(2#5, 0x800#32), (4#5, 1#32)]) [(0x800#32, 0xFFFFFFFF#32)]))
    t.cpu.readX 3#5 = 0xFFFFFFFF#32 ∧ t.env.mem.readWord 0x800#32 = 0xFFFFFFFF#32 := by decide +kernel
/-- R357, R360. -/
theorem test_csr : let s := { base [(6#5, 0x1F3#32)] with cpu := { (base [(6#5, 0x1F3#32)]).cpu with fcsr := 0x21#8 } }
    (after (exec (.csrrw 5#5 3#12 6#5) s)).cpu.fcsr = 0xF3#8 ∧
    (after (exec (.csrrw 5#5 3#12 6#5) s)).cpu.readX 5#5 = 0x21#32 ∧
    (after (exec (.csrrwi 5#5 2#12 3#5) s)).cpu.fcsr = 0x61#8 := by decide +kernel
/-- R351: CSRRW to x0 issues no read. -/
theorem test_csr_delegated : (after (exec (.csrrw 0#5 0x340#12 6#5) (base [(6#5, 7#32)]))).env.requests =
    [.csrWrite 0x340#12 7#32 .writeOnly] := by decide +kernel
/-- R243. -/
theorem test_ecall : let t := after (exec .ecall (atPc (base []) 0x500#32))
    t.outcome = some (.trapped (.core .environmentCall 0#32)) ∧ t.cpu.pc = 0x500#32 := by decide +kernel

/-- 1.0 and 2^-24 in single precision, boxed in FLEN = 128 (95_test_vectors.md scenario 4). -/
def floats : State := withF (base [])
  [(1#5, 0xFFFFFFFFFFFFFFFFFFFFFFFF3F800000#128), (2#5, 0xFFFFFFFFFFFFFFFFFFFFFFFF33800000#128),
    (4#5, 0xFFFFFFFFFFFFFFFFFFFFFFFF00000000#128)]

/-- Scenario 4: 1.0 + 2^-24 is 1.0, inexact. -/
theorem test_fadd : let t := after (exec (.faddS 3#5 1#5 2#5 (.mode .rne)) floats)
    t.cpu.readF 3#5 = 0xFFFFFFFFFFFFFFFFFFFFFFFF3F800000#128 ∧ t.cpu.fcsr = 0x01#8 := by decide +kernel
/-- Scenario 5: 1.0 / 0.0 is +∞ with DZ. -/
theorem test_fdiv : let t := after (exec (.fdivS 3#5 1#5 4#5 (.mode .rne)) floats)
    t.cpu.readF 3#5 = 0xFFFFFFFFFFFFFFFFFFFFFFFF7F800000#128 ∧ t.cpu.fcsr = 0x08#8 := by decide +kernel
/-- R405, R426: a register that is no boxed single is a quiet NaN. -/
theorem test_unboxed : (after (exec (.fclassS 1#5 7#5) floats)).cpu.readX 1#5 = 0x200#32 := by decide +kernel
/-- R407: frm = 101 is illegal when selected. -/
theorem test_dynamic : (after (exec (.faddS 3#5 1#5 2#5 .dyn)
      { floats with cpu := { floats.cpu with fcsr := 0xA0#8 } })).outcome =
    some (.trapped (.core .illegalInstruction 0x0020F1D3#32)) := by decide +kernel
/-- R421: accurate FSQRT.Q is illegal; sqrt(1.0) in single is 1.0. -/
theorem test_fsqrt : (after (exec (.fsqrtS 3#5 1#5 (.mode .rne)) floats)).cpu.readF 3#5 =
      0xFFFFFFFFFFFFFFFFFFFFFFFF3F800000#128 ∧
    (after (exec (.fsqrtQ 3#5 1#5 (.mode .rne)) (withReplies floats [.sqrt .accurate]))).outcome =
      some (.trapped (.core .illegalInstruction (Instr.fsqrtQ 3#5 1#5 (.mode .rne)).bits)) := by decide +kernel

/-! ### The step -/

/-- 95_test_vectors.md scenario 6: C.ADDI x1, 1 at 0x2000 advances the pc by 2. -/
theorem test_step_cAddi : let t := after (step ((atPc (base [(1#5, 5#32)]) 0x2000#32).withFetchWord 16 0x0085))
    t.cpu.readX 1#5 = 6#32 ∧ t.cpu.pc = 0x2002#32 ∧ t.outcome = some .advanced := by decide +kernel
/-- R640: zero-filled memory is illegal at once. -/
theorem test_step_reset : (after (step State.reset)).outcome = some (.trapped (.core .illegalInstruction 0#32)) := by
  decide +kernel
/-- R703. -/
theorem test_step_odd_pc : (after (step (atPc (base []) 0x101#32))).outcome =
    some (.trapped (.core .instructionAddressMisaligned 0x101#32)) := by decide +kernel
/-- R713, R710: a fetch the environment traps, and an embedder that halts. -/
theorem test_step_envTrap : (after (step (withReplies (base []) [.usual, .envTrap 7, .answer .halts]))).outcome =
    some (.halted (.env 7)) := by decide +kernel
/-- R709: no register changes where a step traps. -/
theorem test_step_trap_cpu :
    (after (step (withReplies (base [(1#5, 3#32)]) [.envTrap 7]))).cpu = (base [(1#5, 3#32)]).cpu := by
  decide +kernel

/-! ### Witnesses: the hypotheses of each statement that has some, met by a concrete state and operands -/

theorem noTrapIn_of_none {e : Env} (h : e.replies = []) (n : Nat) : e.noTrapIn n := fun k _ t => by
  simp [Env.reply, h]

theorem usualFor_of_none {e : Env} (h : e.replies = []) (n : Nat) : e.usualFor n := fun k _ => by
  simp [Env.reply, h]

theorem witness_DecodeAfterEncode : (Instr.cLui 31#5 0x3F#6).wf = true ∧
    (Instr.fence 15#4 15#4 15#4 31#5 31#5).wf = true := by
  decide

theorem witness_EncodeAfterDecode : decode [0x85#8, 0x00#8, 0xFF#8] = .ok (.cAddi 1#5 1#6, [0xFF#8]) := rfl

/-- C not implemented, and the gate of C off. -/
theorem witness_GatesAndWidthsDecide :
    (Config.mk .w128 false).cImplemented = false ∧ (Gates.mk true true true true true false).c = false := ⟨rfl, rfl⟩

/-- A word of each extension, in the order of the lists. -/
theorem witness_GatesAndWidthsDecide_words :
    (∀ p ∈ ([(0x022081B3#32, .mul 3#5 1#5 2#5), (0x100121AF#32, .lrW 0#1 0#1 3#5 2#5),
        (0x002081D3#32, .faddS 3#5 1#5 2#5 (.mode .rne)), (0x401081D3#32, .fcvtSD 3#5 1#5 (.mode .rne)),
        (0x403081D3#32, .fcvtSQ 3#5 1#5 (.mode .rne)), (0x002081B3#32, .add 3#5 1#5 2#5),
        (0x003312F3#32, .csrrw 5#5 3#12 6#5), (0x0000100F#32, .fenceI 0#12 0#5 0#5)] : List (Word × Instr)),
      decode32 p.1 = .ok p.2) ∧
    ∀ p ∈ ([(0x40C0#16, .cLw 0#3 1#3 1#5), (0x60C0#16, .cFlw 0#3 1#3 1#5), (0x2480#16, .cFld 0#3 1#3 1#5)] :
        List (Parcel × Instr)),
      decode16 p.1 = .ok p.2 := by
  decide +kernel

/-- One word for each clause, in order. -/
theorem witness_UnallocatedWordsRejected :
    let opcode := fun w : Word => w.extractLsb' 0 7
    let funct3 := fun w : Word => w.extractLsb' 12 3
    let fmt := fun w : Word => w.extractLsb' 25 2
    let funct7 := fun w : Word => w.extractLsb' 25 7
    let funct5 := fun w : Word => w.extractLsb' 27 5
    opcode 0x0000007F#32 = 0x7F#7 ∧
    (opcode 0x30200073#32 = 0x73#7 ∧ funct3 0x30200073#32 = 0#3 ∧ 0x30200073#32 ≠ 0x00000073#32) ∧
    (opcode 0x00004073#32 = 0x73#7 ∧ funct3 0x00004073#32 = 4#3) ∧
    (opcode 0x04000053#32 = 0x53#7 ∧ fmt 0x04000053#32 = 2#2) ∧
    (opcode 0x00006043#32 = 0x43#7 ∧ funct3 0x00006043#32 ∈ [5#3, 6#3]) ∧
    (opcode 0x00001067#32 = 0x67#7 ∧ funct3 0x00001067#32 ≠ 0#3) ∧
    (opcode 0x00003003#32 = 0x03#7 ∧ funct3 0x00003003#32 ∈ [3#3, 6#3, 7#3]) ∧
    (opcode 0x00003023#32 = 0x23#7 ∧ 2 < (funct3 0x00003023#32).toNat) ∧
    (opcode 0x00002063#32 = 0x63#7 ∧ funct3 0x00002063#32 ∈ [2#3, 3#3]) ∧
    (opcode 0x0000200F#32 = 0x0F#7 ∧ 1 < (funct3 0x0000200F#32).toNat) ∧
    (opcode 0x00001007#32 = 0x07#7 ∧ funct3 0x00001007#32 ∉ [2#3, 3#3, 4#3]) ∧
    (opcode 0x02001013#32 = 0x13#7 ∧ funct3 0x02001013#32 = 1#3 ∧ funct7 0x02001013#32 ≠ 0#7) ∧
    (opcode 0x02005013#32 = 0x13#7 ∧ funct3 0x02005013#32 = 5#3 ∧ funct7 0x02005013#32 ∉ [0#7, 0x20#7]) ∧
    (opcode 0x04000033#32 = 0x33#7 ∧ funct7 0x04000033#32 ∉ [0#7, 1#7, 0x20#7]) ∧
    (opcode 0x40001033#32 = 0x33#7 ∧ funct7 0x40001033#32 = 0x20#7 ∧ funct3 0x40001033#32 ∉ [0#3, 5#3]) ∧
    (opcode 0x0000302F#32 = 0x2F#7 ∧ funct3 0x0000302F#32 ≠ 2#3) ∧
    (opcode 0x1010202F#32 = 0x2F#7 ∧ funct5 0x1010202F#32 = 2#5 ∧ (0x1010202F#32).extractLsb' 20 5 ≠ 0#5) ∧
    (opcode 0x2800202F#32 = 0x2F#7 ∧
      funct5 0x2800202F#32 ∉ [0#5, 1#5, 2#5, 3#5, 4#5, 8#5, 0xc#5, 0x10#5, 0x14#5, 0x18#5, 0x1c#5]) ∧
    opcode 0xF8000053#32 = 0x53#7 ∧
      funct5 0xF8000053#32 ∉ [0#5, 1#5, 2#5, 3#5, 4#5, 5#5, 8#5, 0xb#5, 0x14#5, 0x18#5, 0x1a#5, 0x1c#5, 0x1e#5] := by
  decide +kernel

/-- The major opcode, funct5, fmt, the rs2 selector and funct3 of a word, as numbers. -/
def selectors (w : Word) : List Nat :=
  [(w.extractLsb' 0 7).toNat, (w.extractLsb' 27 5).toNat, (w.extractLsb' 25 2).toNat, (w.extractLsb' 20 5).toNat,
    (w.extractLsb' 12 3).toNat]

/-- The same for the clauses of OP-FP, one word for each way a selector is wrong: FSQRT.S with rs2 = 1; FCVT.S with source
10, and with its own format; FCVT.W.S with the selector of FCVT.L; FCVT.S.W with that of FCVT.S.LU; FSGNJ and FLE with
funct3 011, FMIN with 010. -/
theorem witness_UnallocatedWordsRejected_fp :
    selectors 0x58100053#32 = [0x53, 0xb, 0, 1, 0] ∧ selectors 0x40200053#32 = [0x53, 8, 0, 2, 0] ∧
    selectors 0x40000053#32 = [0x53, 8, 0, 0, 0] ∧ selectors 0xC0200053#32 = [0x53, 0x18, 0, 2, 0] ∧
    selectors 0xD0300053#32 = [0x53, 0x1a, 0, 3, 0] ∧ selectors 0x20003053#32 = [0x53, 4, 0, 0, 3] ∧
    selectors 0xA0003053#32 = [0x53, 0x14, 0, 0, 3] ∧ selectors 0x28002053#32 = [0x53, 5, 0, 0, 2] := by
  decide +kernel

/-- FMV.X.D, FCLASS with rs2 = 1 and with funct3 010; FMV.D.X, FMV.W.X with rs2 = 1 and with funct3 001. -/
theorem witness_UnallocatedWordsRejected_moves :
    selectors 0xE2000053#32 = [0x53, 0x1c, 1, 0, 0] ∧ selectors 0xE0101053#32 = [0x53, 0x1c, 0, 1, 1] ∧
    selectors 0xE0002053#32 = [0x53, 0x1c, 0, 0, 2] ∧ selectors 0xF2000053#32 = [0x53, 0x1e, 1, 0, 0] ∧
    selectors 0xF0100053#32 = [0x53, 0x1e, 0, 1, 0] ∧ selectors 0xF0001053#32 = [0x53, 0x1e, 0, 0, 1] := by
  decide +kernel

/-- R134: all of these are illegal. -/
theorem test_decode_fp_selectors :
    ([0x58100053#32, 0x40200053#32, 0x40000053#32, 0xC0200053#32, 0xD0300053#32, 0x20003053#32, 0xA0003053#32,
      0x28002053#32, 0xE2000053#32, 0xE0101053#32, 0xE0002053#32, 0xF2000053#32, 0xF0100053#32, 0xF0001053#32] :
      List Word).all (fun w => (decode32 w).toOption.isNone) = true := by decide +kernel

/-- The seven reserved forms, in order, by their fields. -/
theorem witness_ReservedParcelsRejected :
    let quadrant := fun p : Parcel => p.extractLsb' 0 2
    let funct3 := fun p : Parcel => p.extractLsb' 13 3
    let bit12 := fun p : Parcel => p.extractLsb' 12 1
    let rd := fun p : Parcel => p.extractLsb' 7 5
    let low := fun p : Parcel => p.extractLsb' 2 5
    (quadrant 0#16 = 0#2 ∧ funct3 0#16 = 0#3 ∧ (0#16).extractLsb' 5 8 = 0#8) ∧
    (quadrant 0x9FFC#16 = 0#2 ∧ funct3 0x9FFC#16 = 4#3) ∧
    (quadrant 0x6F81#16 = 1#2 ∧ funct3 0x6F81#16 = 3#3 ∧ bit12 0x6F81#16 = 0#1 ∧ low 0x6F81#16 = 0#5) ∧
    (quadrant 0x9C01#16 = 1#2 ∧ funct3 0x9C01#16 = 4#3 ∧ bit12 0x9C01#16 = 1#1 ∧ (0x9C01#16).extractLsb' 10 2 ≠ 2#2) ∧
    (quadrant 0x1002#16 = 2#2 ∧ funct3 0x1002#16 = 0#3 ∧ bit12 0x1002#16 = 1#1) ∧
    (quadrant 0x507E#16 = 2#2 ∧ funct3 0x507E#16 = 2#3 ∧ rd 0x507E#16 = 0#5) ∧
    quadrant 0x8002#16 = 2#2 ∧ funct3 0x8002#16 = 4#3 ∧ bit12 0x8002#16 = 0#1 ∧ rd 0x8002#16 = 0#5 ∧
      low 0x8002#16 = 0#5 := by decide +kernel

/-- A divisor that is not 0, a pair that does not overflow; and the pairs at the edges. -/
theorem witness_DivisionIdentity : (0xFFFFFFFF#32 : Word) ≠ 0#32 ∧
    ¬ (0x80000001#32 = 0x80000000#32 ∧ (0xFFFFFFFF#32 : Word) = 0xFFFFFFFF#32) ∧
    ¬ ((0x80000000#32 : Word) = 0x80000000#32 ∧ 1#32 = 0xFFFFFFFF#32) := by decide

theorem witness_CompressedExpands : expansion (.cLwsp 1#5 63#6) = some (.lw 1#5 2#5 252#12) ∧
    (∀ off rs1 rs2 o8, Instr.cLwsp 1#5 63#6 ≠ .cJal off ∧ Instr.cLwsp 1#5 63#6 ≠ .cJ off ∧
      Instr.cLwsp 1#5 63#6 ≠ .cJr rs1 ∧
      Instr.cLwsp 1#5 63#6 ≠ .cJalr rs1 ∧ Instr.cLwsp 1#5 63#6 ≠ .cBeqz rs2 o8 ∧
        Instr.cLwsp 1#5 63#6 ≠ .cBnez rs2 o8) :=
  ⟨rfl, by simp⟩

/-- The base registers from which every form reaches the top of the address space. -/
def edge : State := base [(2#5, 0xFFFFFF00#32), (8#5, 0xFFFFFF80#32)]

/-- The last byte, half and word of memory, from x0, x8 and x2. -/
theorem witness_IntegerLoads : edge.env.noTrapIn 1 ∧
    (edge.cpu.readX 0#5 + (0xFFF#12).signExtend 32).toNat % 1 = 0 ∧
    (edge.cpu.readX 0#5 + (0xFFE#12).signExtend 32).toNat % 2 = 0 ∧
    (edge.cpu.readX 0#5 + (0xFFC#12).signExtend 32).toNat % 4 = 0 ∧
    (edge.cpu.readX (cfield 0#3) + BitVec.ofNat 32 (4 * (31#5).toNat)).toNat % 4 = 0 ∧
    (edge.cpu.readX 2#5 + BitVec.ofNat 32 (4 * (63#6).toNat)).toNat % 4 = 0 :=
  ⟨noTrapIn_of_none rfl 1, by decide +kernel⟩

theorem witness_IntegerStores : Memory.wf edge.env.mem ∧ edge.env.noTrapIn 1 ∧
    (edge.cpu.readX 0#5 + (0xFFF#12).signExtend 32).toNat % 1 = 0 ∧
    (edge.cpu.readX 0#5 + (0xFFE#12).signExtend 32).toNat % 2 = 0 ∧
    (edge.cpu.readX 0#5 + (0xFFC#12).signExtend 32).toNat % 4 = 0 ∧
    (edge.cpu.readX (cfield 0#3) + BitVec.ofNat 32 (4 * (31#5).toNat)).toNat % 4 = 0 ∧
    (edge.cpu.readX 2#5 + BitVec.ofNat 32 (4 * (63#6).toNat)).toNat % 4 = 0 :=
  ⟨by decide, noTrapIn_of_none rfl 1, by decide +kernel⟩

/-- The last word, and a quad that wraps past the top. -/
theorem witness_FpLoads : edge.env.noTrapIn 1 ∧ edge.env.noTrapIn 2 ∧ edge.env.noTrapIn 4 ∧
    (edge.cpu.readX 0#5 + (0xFFC#12).signExtend 32).toNat % 4 = 0 ∧
    (edge.cpu.readX (cfield 0#3) + BitVec.ofNat 32 (4 * (31#5).toNat)).toNat % 4 = 0 ∧
    (edge.cpu.readX (cfield 0#3) + BitVec.ofNat 32 (8 * (31#5).toNat)).toNat % 4 = 0 ∧
    (edge.cpu.readX 2#5 + BitVec.ofNat 32 (4 * (63#6).toNat)).toNat % 4 = 0 ∧
    (edge.cpu.readX 2#5 + BitVec.ofNat 32 (8 * (63#6).toNat)).toNat % 4 = 0 :=
  ⟨noTrapIn_of_none rfl 1, noTrapIn_of_none rfl 2, noTrapIn_of_none rfl 4, by decide +kernel⟩

theorem witness_FpStores : Memory.wf edge.env.mem ∧ edge.env.noTrapIn 1 ∧ edge.env.noTrapIn 2 ∧ edge.env.noTrapIn 4 ∧
    (edge.cpu.readX 0#5 + (0xFFC#12).signExtend 32).toNat % 4 = 0 ∧
    (edge.cpu.readX (cfield 0#3) + BitVec.ofNat 32 (8 * (31#5).toNat)).toNat % 4 = 0 ∧
    (edge.cpu.readX 2#5 + BitVec.ofNat 32 (8 * (63#6).toNat)).toNat % 4 = 0 :=
  ⟨by decide, noTrapIn_of_none rfl 1, noTrapIn_of_none rfl 2, noTrapIn_of_none rfl 4, by decide +kernel⟩

/-- Every wrong residue of a half and of a word, for the loads and the stores alike, the compressed bases among them. -/
theorem witness_MisalignedAccessTraps : let s := base [(2#5, 0x1001#32), (8#5, 0x1003#32), (9#5, 0x1002#32)]
    (s.cpu.readX 2#5 + (0#12).signExtend 32).toNat % 2 ≠ 0 ∧ (s.cpu.readX 2#5 + (0#12).signExtend 32).toNat % 4 ≠ 0 ∧
    (s.cpu.readX 9#5).toNat % 4 ≠ 0 ∧ (s.cpu.readX (cfield 0#3) + BitVec.ofNat 32 (4 * (31#5).toNat)).toNat % 4 ≠ 0 ∧
    (s.cpu.readX (cfield 1#3) + BitVec.ofNat 32 (8 * (0#5).toNat)).toNat % 4 ≠ 0 ∧
    (s.cpu.readX 2#5 + BitVec.ofNat 32 (4 * (63#6).toNat)).toNat % 4 ≠ 0 ∧
    (s.cpu.readX 2#5 + BitVec.ofNat 32 (8 * (63#6).toNat)).toNat % 4 ≠ 0 := by decide +kernel

/-- The last word of a double and of a quad. -/
theorem witness_WideStoreStopsHalfway :
    let d := withReplies edge [.usual, .envTrap 5]
    let q := withReplies edge [.usual, .usual, .usual, .envTrap 5]
    Memory.wf d.env.mem ∧ 1 < 2 ∧ (d.cpu.readX 2#5 + BitVec.ofNat 32 (8 * (63#6).toNat)).toNat % 4 = 0 ∧
    (d.cpu.readX (cfield 0#3) + BitVec.ofNat 32 (8 * (31#5).toNat)).toNat % 4 = 0 ∧
    d.env.noTrapIn 1 ∧ d.env.reply 1 = .envTrap 5 ∧
    Memory.wf q.env.mem ∧ 3 < 4 ∧ (q.cpu.readX 0#5 + (0xFFC#12).signExtend 32).toNat % 4 = 0 ∧
    q.env.noTrapIn 3 ∧ q.env.reply 3 = .envTrap 5 := by
  refine ⟨by decide, by decide, by decide +kernel, by decide +kernel, ?_, rfl, by decide, by decide,
    by decide +kernel, ?_, rfl⟩ <;>
  · intro k hk t
    interval_cases k <;> simp [Env.reply, withReplies]

theorem witness_LoadSeesStore : Memory.wf edge.env.mem ∧ edge.env.usualFor 2 ∧ (31#5 : XReg) ≠ 0#5 ∧
    edge.cpu.readX 2#5 + (0xFC#12).signExtend 32 = edge.cpu.readX 0#5 + (0xFFC#12).signExtend 32 ∧
    (edge.cpu.readX 2#5 + (0xFC#12).signExtend 32).toNat % 4 = 0 :=
  ⟨by decide, usualFor_of_none rfl 2, by decide +kernel⟩

theorem witness_LoadReservedReserves : (edge.cpu.readX 2#5).toNat % 4 = 0 ∧ edge.env.noTrapIn 1 :=
  ⟨by decide +kernel, noTrapIn_of_none rfl 1⟩

/-- The reserved word; no reservation; the reserved word where the environment lets the store fail. -/
theorem witness_StoreConditionalDecides :
    let r := { edge with env := { edge.env with reservation := some 0xFFFFFF00#32 } }
    let f := withReplies r [.scFail]
    Memory.wf r.env.mem ∧ (r.cpu.readX 2#5).toNat % 4 = 0 ∧ r.env.noTrapIn 1 ∧
    (r.env.reservation = some (r.cpu.readX 2#5) ∧ r.env.reply 0 ≠ .scFail) ∧
    edge.env.reservation ≠ some (edge.cpu.readX 2#5) ∧ f.env.reply 0 = .scFail ∧ f.env.noTrapIn 1 := by
  refine ⟨by decide, by decide +kernel, noTrapIn_of_none rfl 1, by decide +kernel, by decide +kernel, rfl,
    fun k hk t => ?_⟩
  interval_cases k
  simp [Env.reply, withReplies]

theorem witness_AtomicMemoryOperations : Memory.wf edge.env.mem ∧ (edge.cpu.readX 2#5).toNat % 4 = 0 ∧
    edge.env.noTrapIn 2 :=
  ⟨by decide, by decide +kernel, noTrapIn_of_none rfl 2⟩

theorem witness_FpCsrAccess : (base []).cfg.flen ≠ .none ∧ (base []).env.gates.f = true := by decide

/-- The numbers beside the FP CSRs and the last one, at each length of the requests. -/
theorem witness_DelegatedCsrAccess : 0x000#12 ∉ [0x001#12, 0x002#12, 0x003#12] ∧
    0x004#12 ∉ [0x001#12, 0x002#12, 0x003#12] ∧
    0xFFF#12 ∉ [0x001#12, 0x002#12, 0x003#12] ∧ CsrFile.wf (base []).env.csrs ∧
    (base []).env.noTrapIn 1 ∧ (base []).env.noTrapIn 2 :=
  ⟨by decide, by decide, by decide, by decide, noTrapIn_of_none rfl 1, noTrapIn_of_none rfl 2⟩

/-- No FP register file; the gate of F off. -/
theorem witness_FpCsrNeedsFpu :
    ({ base [] with cfg := { flen := .none, cImplemented := true } } : State).cfg.flen = .none ∧
    ({ base [] with env := { Env.reset with gates := { Env.reset.gates with f := false } } } :
      State).env.gates.f = false :=
  ⟨rfl, rfl⟩

/-- frm = RMM. -/
def rmm : State := { floats with cpu := { floats.cpu with fcsr := 0x80#8 } }

/-- A static mode, and the dynamic one with frm = RMM. -/
theorem witness_FpBinaryOperations : RoundsBy floats (.mode .rup) .rup ∧ RoundsBy rmm .dyn .rmm :=
  ⟨.inl rfl, .inr ⟨rfl, by decide +kernel⟩⟩

theorem witness_FpFusedOperations : RoundsBy floats (.mode .rup) .rup ∧ RoundsBy rmm .dyn .rmm :=
  witness_FpBinaryOperations

theorem witness_FpToIntegerConversions : RoundsBy floats (.mode .rup) .rup ∧ RoundsBy rmm .dyn .rmm :=
  witness_FpBinaryOperations

theorem witness_FpConversions : RoundsBy floats (.mode .rup) .rup ∧ RoundsBy rmm .dyn .rmm :=
  witness_FpBinaryOperations

theorem finiteValue_of {fmt : Fmt} {v : BitVec fmt.width} {neg : Bool} {m : Nat} {e : Int} (h :
    unpack v = .fin neg m e) :
    finiteValue v = some ((if neg then -1 else 1) * (m : ℚ) * 2 ^ e) := by
  simp [finiteValue, h]

theorem finiteValue_one : finiteValue (fmt := .s) 0x3F800000#32 = some 1 :=
  (finiteValue_of (fmt := .s) (v := 0x3F800000#32) (neg := false) (m := 2 ^ 23) (e := -23) (by decide +kernel)).trans (by norm_num)

theorem finiteValue_minus_two : finiteValue (fmt := .s) 0xC0000000#32 = some (-2) :=
  (finiteValue_of (fmt := .s) (v := 0xC0000000#32) (neg := true) (m := 2 ^ 23) (e := -22) (by decide +kernel)).trans (by norm_num)

theorem finiteValue_zero : finiteValue (fmt := .s) 0x80000000#32 = some 0 :=
  (finiteValue_of (fmt := .s) (v := 0x80000000#32) (neg := true) (m := 0) (e := -149) (by decide +kernel)).trans (by norm_num)

/-- Each mode by a scripted answer and by the usual one, for each format the clause is about. -/
theorem witness_FpSquareRoots :
    let fast := withReplies floats [.sqrt .fast]
    let illegal := withReplies floats [.sqrt .illegal]
    let accurate := withReplies floats [.sqrt .accurate]
    RoundsBy floats (.mode .rne) .rne ∧
    ((∀ q, floats.env.reply 0 ≠ .sqrt q) ∧ SqrtMode.accurate = floats.env.sqrtModes.s ∧ Fmt.s ≠ .q) ∧
    ((∀ q, floats.env.reply 0 ≠ .sqrt q) ∧ SqrtMode.fast = floats.env.sqrtModes.q) ∧
    fast.env.reply 0 = .sqrt .fast ∧ illegal.env.reply 0 = .sqrt .illegal ∧ accurate.env.reply 0 = .sqrt .accurate ∧
    finiteValue (readFp floats.cfg.flen floats.cpu .s 1#5) = some 1 ∧ (0 : ℚ) < 1 := by
  refine ⟨.inl rfl, ⟨fun q => ?_, rfl, by decide⟩, ⟨fun q => ?_, rfl⟩, rfl, rfl, rfl, ?_, by norm_num⟩
  · exact Reply.noConfusion
  · exact Reply.noConfusion
  · have h : readFp floats.cfg.flen floats.cpu .s 1#5 = (0x3F800000#32 :
    BitVec Fmt.s.width) := BitVec.eq_of_toNat_eq (by decide +kernel)
    exact (congrArg (finiteValue (fmt := .s)) h).trans finiteValue_one

theorem witness_FpMovesKeepBits : (base []).cfg.flen ≠ .none ∧ (31#5 : XReg) ≠ 0#5 := by decide

/-- frm = 101, 110 and 111. -/
theorem witness_InvalidDynamicModeTraps : ∀ b ∈ [0xA0#8, 0xC0#8, 0xE0#8],
    5 ≤ ((({ floats with cpu := { floats.cpu with fcsr := b } } :
      State).cpu.fcsr).extractLsb' 5 3).toNat := by decide +kernel

/-- A single in 64 bits, boxed and not; a double in 64 bits, where no bit is left over. -/
theorem witness_NanBoxing : Fmt.s.width ≤ Flen.w64.bits ∧ Fmt.d.width ≤ Flen.w64.bits ∧
    (∀ i, Fmt.s.width ≤ i → i < Flen.w64.bits → (0xFFFFFFFF3F800000#128).getLsbD i = true) ∧
    (∃ i, Fmt.s.width ≤ i ∧ i < Flen.w64.bits ∧ (0x7FFFFFFF3F800000#128).getLsbD i = false) := by
  refine ⟨by decide, by decide, fun i h1 h2 => ?_, 63, by decide, by decide, by decide⟩
  simp only [Fmt.width, Flen.bits] at h1 h2
  interval_cases i <;> decide

/-- A single's pattern and flags. -/
def single (r : FpResult .s) : Word × BitVec 5 := r

/-- The results R414, R415 and R417 to R423 give by name: ∞ - ∞, 0 × ∞, 0/0, ∞/∞ and the root of -2 are NaN with NV, a
signaling NaN too and a quiet one without it; 1/0 has DZ; ∞ × 0 + NaN has NV. -/
theorem test_fp_special :
    single (fadd (fmt := .s) 0x7F800000#32 0xFF800000#32 .rne) = (0x7FC00000#32, 0x10#5) ∧
    single (fmul (fmt := .s) 0x80000000#32 0x7F800000#32 .rne) = (0x7FC00000#32, 0x10#5) ∧
    single (fdiv (fmt := .s) 0x00000000#32 0x80000000#32 .rne) = (0x7FC00000#32, 0x10#5) ∧
    single (fdiv (fmt := .s) 0xFF800000#32 0x7F800000#32 .rne) = (0x7FC00000#32, 0x10#5) ∧
    single (fsqrt (fmt := .s) 0xC0000000#32 .rne) = (0x7FC00000#32, 0x10#5) ∧
    single (fsub (fmt := .s) 0x3F800000#32 0x7F800001#32 .rne) = (0x7FC00000#32, 0x10#5) ∧
    single (fsub (fmt := .s) 0x3F800000#32 0x7FC00001#32 .rne) = (0x7FC00000#32, 0#5) ∧
    single (fdiv (fmt := .s) 0x3F800000#32 0x80000000#32 .rne) = (0xFF800000#32, 0x08#5) ∧
    single (ffma (fmt := .s) false false 0x7F800000#32 0x00000000#32 0x7FC00000#32 .rne) = (0x7FC00000#32, 0x10#5) := by
  decide +kernel

/-- Those without a flag: 1 - (-∞), ∞/0, 1/∞, 0/(-2), √-0, and -(1 × ∞) + 1. -/
theorem test_fp_special_quiet :
    single (fsub (fmt := .s) 0x3F800000#32 0xFF800000#32 .rne) = (0x7F800000#32, 0#5) ∧
    single (fdiv (fmt := .s) 0x7F800000#32 0x80000000#32 .rne) = (0xFF800000#32, 0#5) ∧
    single (fdiv (fmt := .s) 0x3F800000#32 0xFF800000#32 .rne) = (0x80000000#32, 0#5) ∧
    single (fdiv (fmt := .s) 0x00000000#32 0xC0000000#32 .rne) = (0x80000000#32, 0#5) ∧
    single (fsqrt (fmt := .s) 0x80000000#32 .rne) = (0x80000000#32, 0#5) ∧
    single (ffma (fmt := .s) true false 0x3F800000#32 0x7F800000#32 0x3F800000#32 .rne) = (0xFF800000#32, 0#5) := by
  decide +kernel

/-- Operands of every class the clauses name; a NaN result, one with NV, one with DZ. -/
theorem witness_FpExceptionalResults :
    (unpack (fadd (fmt := .s) 0x7F800000#32 0xFF800000#32 .rne).1).isNaN = true ∧
    (fadd (fmt := .s) 0x7F800000#32 0xFF800000#32 .rne).2 &&& flagNV ≠ 0#5 ∧
    (fdiv (fmt := .s) 0x3F800000#32 0x80000000#32 .rne).2 &&& flagDZ ≠ 0#5 ∧
    (unpack (fmt := .s) 0x7F800001#32).isNaN = true ∧ (unpack (fmt := .s) 0xFF800000#32).isInf = true ∧
    (unpack (fmt := .s) 0xFF800000#32).isNaN = false ∧
    finiteValue (fmt := .s) 0x3F800000#32 = some 1 ∧ finiteValue (fmt := .s) 0xC0000000#32 = some (-2) ∧
    finiteValue (fmt := .s) 0x80000000#32 = some 0 ∧ (1 : ℚ) ≠ 0 ∧ (-2 : ℚ) < 0 ∧
    finiteValue (fmt := .s) 0xFF800000#32 ≠ some 0 ∧ finiteValue (fmt := .s) 0x3F800000#32 ≠ some 0 := by
  refine ⟨by decide +kernel, by decide +kernel, by decide +kernel, by decide +kernel, by decide +kernel,
    by decide +kernel, finiteValue_one, finiteValue_minus_two, finiteValue_zero, by norm_num, by norm_num, ?_, ?_⟩
  · have h : unpack (fmt := .s) 0xFF800000#32 = .inf true := by decide +kernel
    simp [finiteValue, h]
  · rw [finiteValue_one]; simp

theorem orderValue_of {fmt : Fmt} {v : BitVec fmt.width} {q : ℚ} (h : finiteValue v = some q) :
    orderValue v = some (((q : ℚ) : WithTop ℚ) : WithBot (WithTop ℚ)) := by
  unfold finiteValue at h
  unfold orderValue
  split at h
  · rename_i hv
    simp only [Option.some.injEq] at h
    simp [hv, ← h]
  · cases h

/-- Two numbers either way round, the two zeros, an infinity, and a NaN beside a number and beside a NaN. -/
theorem witness_FpOrder :
    (∃ x y, orderValue (fmt := .s) 0xC0000000#32 = some x ∧ orderValue (fmt := .s) 0x3F800000#32 = some y ∧ x < y) ∧
    (∃ x, orderValue (fmt := .s) 0x80000000#32 = some x ∧ orderValue (fmt := .s) 0x00000000#32 = some x) ∧
    signOf (fmt := .s) 0x80000000#32 = true ∧ signOf (fmt := .s) 0x00000000#32 = false ∧
    orderValue (fmt := .s) 0xFF800000#32 = some ⊥ ∧ orderValue (fmt := .s) 0x7F800001#32 = none := by
  refine ⟨⟨_, _, orderValue_of finiteValue_minus_two, orderValue_of finiteValue_one, ?_⟩, ⟨_,
    orderValue_of finiteValue_zero, ?_⟩,
    by decide, by decide, ?_, ?_⟩
  · exact WithBot.coe_lt_coe.2 (WithTop.coe_lt_coe.2 (by norm_num))
  · exact orderValue_of ((finiteValue_of (fmt := .s) (v := 0x00000000#32) (neg := false) (m := 0) (e := -149)
      (by decide +kernel)).trans (by norm_num))
  · have h : unpack (fmt := .s) 0xFF800000#32 = .inf true := by decide +kernel
    simp [orderValue, h]
  · have h : unpack (fmt := .s) 0x7F800001#32 = .nan true := by decide +kernel
    simp [orderValue, h]

/-- The top bit of a pattern. -/
theorem witness_ClassesAndSigns : Fmt.q.width - 1 < Fmt.q.width := by decide

/-- R412: 1 - 1 is +0, and -0 under RDN; (-0) - 0 is -0; and so -(1 × 1) + 1. -/
theorem test_fp_exact_zero :
    single (fsub (fmt := .s) 0x3F800000#32 0x3F800000#32 .rne) = (0#32, 0#5) ∧
    single (fsub (fmt := .s) 0x3F800000#32 0x3F800000#32 .rdn) = (0x80000000#32, 0#5) ∧
    single (fsub (fmt := .s) 0x80000000#32 0x00000000#32 .rne) = (0x80000000#32, 0#5) ∧
    single (ffma (fmt := .s) true false 0x3F800000#32 0x3F800000#32 0x3F800000#32 .rdn) = (0x80000000#32, 0#5) := by
  decide +kernel

/-- Sums, differences, products and fused sums that are not 0, and ones that are. -/
theorem witness_SumsAndProductsRound : finiteValue (fmt := .s) 0x3F800000#32 = some 1 ∧
    finiteValue (fmt := .s) 0xC0000000#32 = some (-2) ∧ finiteValue (fmt := .s) 0x80000000#32 = some 0 ∧
    (1 : ℚ) + -2 ≠ 0 ∧ (0 : ℚ) + 0 = 0 ∧ (1 : ℚ) - -2 ≠ 0 ∧ (1 : ℚ) * -2 ≠ 0 ∧ (1 : ℚ) * 0 = 0 ∧
      (1 : ℚ) * (1 * -2) + 1 * 1 ≠ 0 ∧ (1 : ℚ) - 1 = 0 ∧ (0 : ℚ) - 0 = 0 ∧ (-1 : ℚ) * (1 * 1) + 1 * 1 = 0 ∧
      (1 : ℚ) * (0 * 1) + -1 * 0 = 0 :=
  ⟨finiteValue_one, finiteValue_minus_two, finiteValue_zero, by norm_num⟩

theorem witness_QuotientsAndRootsRound : finiteValue (fmt := .s) 0x3F800000#32 = some 1 ∧
    finiteValue (fmt := .s) 0xC0000000#32 = some (-2) ∧ (1 : ℚ) ≠ 0 ∧ (-2 : ℚ) ≠ 0 ∧ (0 : ℚ) < 1 :=
  ⟨finiteValue_one, finiteValue_minus_two, by norm_num⟩

/-- Numbers, a zero, both infinities' class and both kinds of NaN. -/
theorem witness_ConversionsRound : (0x80000000#32 : Word) ≠ 0#32 ∧ Fmt.d ≠ .s ∧
    finiteValue (fmt := .s) 0x3F800000#32 = some 1 ∧
    (1 : ℚ) ≠ 0 ∧ Fmt.s.width ≤ Fmt.d.width ∧ finiteValue (fmt := .s) 0x80000000#32 = some 0 ∧
    unpack (fmt := .s) 0xFF800000#32 = .inf true ∧ unpack (fmt := .s) 0x7F800001#32 = .nan true ∧
    unpack (fmt := .s) 0x7FC00000#32 = .nan false :=
  ⟨by decide, by decide, finiteValue_one, by norm_num, by decide, finiteValue_zero, by decide +kernel⟩

/-- Trapping, halting and retiring steps. -/
theorem witness_TrapLeavesTheCore : (∃ t, step State.reset = .next t ∧
    t.outcome = some (.trapped (.core .illegalInstruction 0#32))) ∧
    (∃ t, step (withReplies (base []) [.envTrap 7, .answer .halts]) = .next t ∧ t.outcome = some (.halted (.env 7))) ∧
    ∃ t, step (State.reset.withFetchWord 16 0x0085) = .next t ∧ t.outcome = some .advanced :=
  ⟨⟨_, rfl, by decide +kernel⟩, ⟨_, rfl, by decide +kernel⟩, ⟨_, rfl, by decide +kernel⟩⟩

theorem witness_ChargesOfAStep : (∃ t, step (State.reset.withFetchWord 16 0x0085) = .next t ∧
    t.outcome = some .advanced) ∧
    (beginStep (withReplies (base []) [.envTrap 7])).env.reply 0 = .envTrap 7 :=
  ⟨⟨_, rfl, by decide +kernel⟩, rfl⟩

/-- `C.ADDI x1, 1` at the last parcel of memory, and `ADD x2, x1, x1` across the top of the address space. -/
def atTop (w : Word) : State := (atPc (base []) 0xFFFFFFFE#32).placeAtPc w

theorem fetches_top_half : Fetches (beginStep (atTop 0x0085#32)) (encode (.cAddi 1#5 1#6)) where
  even := by decide
  word := fun _ => ⟨rfl, rfl⟩
  bytes := by decide +kernel
  usual := usualFor_of_none rfl _

theorem fetches_top_word : Fetches (beginStep (atTop 0x00108133#32)) (encode (.add 2#5 1#5 1#5)) where
  even := by decide
  word := fun _ => ⟨rfl, rfl⟩
  bytes := by decide +kernel
  usual := usualFor_of_none rfl _

theorem witness_StepRunsDecoded : (Instr.cAddi 1#5 1#6).wf = true ∧
    Instr.enabled (beginStep (atTop 0x0085#32)).cfg (beginStep (atTop 0x0085#32)).env.gates (.cAddi 1#5 1#6) = true ∧
    Fetches (beginStep (atTop 0x0085#32)) (encode (.cAddi 1#5 1#6)) ∧
    (∀ n, (beginStep (atTop 0x0085#32)).env.reply 2 ≠ .envTrap n) ∧
    Fetches (beginStep (atTop 0x00108133#32)) (encode (.add 2#5 1#5 1#5)) ∧
    (∀ n, (beginStep (atTop 0x00108133#32)).env.reply 3 ≠ .envTrap n) :=
  ⟨by decide, by decide, fetches_top_half, fun n => noTrapIn_of_none rfl 3 2 (by decide) n, fetches_top_word,
    fun n => noTrapIn_of_none rfl 4 3 (by decide) n⟩

/-- The same word where the charge of its category is refused. -/
def noBudget : State := withReplies (atTop 0x00108133#32) [.usual, .usual, .usual, .envTrap 9]

theorem witness_BudgetTrapsBeforeExecution : (Instr.add 2#5 1#5 1#5).wf = true ∧
    Instr.enabled (beginStep noBudget).cfg (beginStep noBudget).env.gates (.add 2#5 1#5 1#5) = true ∧
    Fetches (beginStep noBudget) (encode (.add 2#5 1#5 1#5)) ∧
    (beginStep noBudget).env.reply ((Instr.add 2#5 1#5 1#5).len / 2 + 1) = .envTrap 9 := by
  refine ⟨by decide, by decide, ⟨by decide, fun _ => ⟨rfl, rfl⟩, by decide +kernel, fun k hk => ?_⟩, rfl⟩
  have hk : k < 3 := hk
  interval_cases k <;> rfl

/-- An odd pc; bit 1 set with C not implemented, and with its gate off. -/
theorem witness_MisalignedFetchTraps :
    let odd := atPc (base []) 0x101#32
    let noC := { atPc (base []) 0x102#32 with cfg := { flen := .w128, cImplemented := false } }
    let cOff := { atPc (base []) 0x102#32 with env := { Env.reset with gates := { Env.reset.gates with c := false } } }
    (beginStep odd).cpu.pc.getLsbD 0 = true ∧ (beginStep odd).env.noTrapIn 1 ∧
    ((beginStep noC).cpu.pc.getLsbD 1 = true ∧ (beginStep noC).cfg.cImplemented = false) ∧
    (beginStep noC).env.noTrapIn 1 ∧
    ((beginStep cOff).cpu.pc.getLsbD 1 = true ∧ (beginStep cOff).env.gates.c = false) ∧
      (beginStep cOff).env.noTrapIn 1 :=
  ⟨by decide, noTrapIn_of_none rfl 1, by decide, noTrapIn_of_none rfl 1, by decide, noTrapIn_of_none rfl 1⟩

/-- The zero parcel; and `ADD` replaced by a word of an unallocated opcode, across the top. -/
theorem witness_IllegalEncodingTraps :
    ((Encoded.half 0#16).len = 4 ↔ (Encoded.half 0#16).bits.extractLsb' 0 2 = 0b11#2) ∧
    Fetches (beginStep State.reset) (Encoded.half 0#16).bytes ∧
    decodeStep (beginStep State.reset).cfg (beginStep State.reset).env.gates (Encoded.half 0#16).bits 2 =
      .error .reservedCompressed ∧
    ((Encoded.word 0x7F#32).len = 4 ↔ (Encoded.word 0x7F#32).bits.extractLsb' 0 2 = 0b11#2) ∧
    Fetches (beginStep (atTop 0x7F#32)) (Encoded.word 0x7F#32).bytes ∧
    ∃ e, decodeStep (beginStep (atTop 0x7F#32)).cfg (beginStep (atTop 0x7F#32)).env.gates (Encoded.word 0x7F#32).bits 4 = .error e :=
  ⟨by decide, ⟨by decide, fun _ => ⟨rfl, rfl⟩, by decide +kernel, usualFor_of_none rfl _⟩, rfl, by decide,
    ⟨by decide, fun _ => ⟨rfl, rfl⟩, by decide +kernel, usualFor_of_none rfl _⟩, _, rfl⟩

/-- A step that the environment stops at its fetch, whose second request it refused; the fetch of a second parcel. -/
theorem witness_EnvTrapsAreForwarded_step :
    let first := withReplies (base []) [.usual, .envTrap 7]
    let second := withReplies (atPc (base []) 0xFFFFFFFE#32) [.usual, .word 0x00030000#32, .envTrap 7]
    (∃ t, step first = .next t ∧ t.outcome = some (.trapped (.env 7)) ∧ t.env.requests[1]? = some (.readWord 0#32)) ∧
    (Request.readWord 0#32).canFail = true ∧ (beginStep first).env.reply 1 = .envTrap 7 ∧
    (beginStep first).env.noTrapIn 1 ∧ (beginStep first).cpu.pc.getLsbD 0 = false ∧
    (beginStep first).cpu.pc.getLsbD 1 = false ∧
    ((beginStep second).cpu.pc.getLsbD 0 = false ∧ (beginStep second).cpu.pc.getLsbD 1 = true ∧
      (beginStep second).cfg.cImplemented = true ∧ (beginStep second).env.gates.c = true) ∧
    (beginStep second).env.noTrapIn 2 ∧ (beginStep second).env.reply 2 = .envTrap 7 ∧
    (((beginStep second).env.wordAt 1 0xFFFFFFFC#32).extractLsb' 16 16).extractLsb' 0 2 = 0b11#2 := by
  refine ⟨⟨_, rfl, by decide +kernel, by decide +kernel⟩, rfl, rfl, ?_, by decide, by decide, by decide, ?_, rfl,
    by decide +kernel⟩ <;>
  · intro k hk t
    interval_cases k <;> exact Reply.noConfusion

/-- Each request of the accesses, the first and the last, refused; the last half, word and quad of memory. -/
theorem witness_EnvTrapsAreForwarded :
    let first := withReplies edge [.envTrap 5]
    let write := withReplies edge [.usual, .envTrap 5]
    let quad := withReplies edge [.usual, .usual, .usual, .envTrap 5]
    (first.env.noTrapIn 0 ∧ first.env.reply 0 = .envTrap 5) ∧ (write.env.noTrapIn 1 ∧ write.env.reply 1 = .envTrap 5) ∧
    (quad.env.noTrapIn 3 ∧ quad.env.reply 3 = .envTrap 5) ∧
    (edge.cpu.readX 0#5 + (0xFFF#12).signExtend 32).toNat % 1 = 0 ∧
    (edge.cpu.readX 0#5 + (0xFFE#12).signExtend 32).toNat % 2 = 0 ∧
    (edge.cpu.readX 0#5 + (0xFFC#12).signExtend 32).toNat % 4 = 0 ∧ (edge.cpu.readX 2#5).toNat % 4 = 0 ∧
    (edge.cpu.readX (cfield 0#3) + BitVec.ofNat 32 (8 * (31#5).toNat)).toNat % 4 = 0 ∧
    (edge.cpu.readX 2#5 + BitVec.ofNat 32 (8 * (63#6).toNat)).toNat % 4 = 0 ∧
    0xFFF#12 ∉ [0x001#12, 0x002#12, 0x003#12] := by
  refine ⟨⟨fun k hk => by omega, rfl⟩, ⟨?_, rfl⟩, ⟨?_, rfl⟩, by decide +kernel, by decide +kernel, by decide +kernel,
    by decide +kernel, by decide +kernel, by decide +kernel, by decide⟩ <;>
  · intro k hk t
    interval_cases k <;> exact Reply.noConfusion

/-- A state with memory, a reserved word, f registers and an embedder's turn to come. -/
def busy : State :=
  { withWords floats [(0xFFFFFFFC#32, 0x11223344#32)] with
    env := { (withWords floats [(0xFFFFFFFC#32, 0x11223344#32)]).env with
      reservation := some 0xFFFFFFFC#32, csrs := [(0x340, 7#32)] }
    schedule := [[.restore floats.image, .setCsr 0xFFF#12 1#32]] }

theorem witness_StepKeepsInvariant : busy.Inv ∧ ∃ t, step busy = .next t :=
  ⟨⟨by decide +kernel, by decide, fun a h => by cases h; decide, by decide +kernel⟩, _, rfl⟩

/-- An even pc an embedder's restore gives; and a turn that acts, but restores nothing. -/
theorem witness_PcStaysEven : ((embedderTurn busy).cpu.pc.toNat % 2 = 0 ∧ ∃ t, step busy = .next t) ∧
    ∀ acts ∈ ({ busy with schedule := [[.dropReservation, .setCsr 0xFFF#12 1#32], [.restore floats.image]] } :
      State).schedule.head?, ∀ act ∈ acts, ∀ c, act ≠ .restore c :=
  ⟨⟨by decide +kernel, _, rfl⟩, by simp⟩

/-- A Zicsr instruction, one that is not, a flag that is set, and a retired instruction of each of the lists. -/
theorem witness_ExecutionTouchesOnlyItsOwn : (Instr.csrrw 5#5 3#12 6#5).ext ∈ [Ext.i, .m, .a, .zifencei, .zicsr, .c] ∧
    (Instr.faddS 3#5 1#5 2#5 .dyn).ext ≠ .zicsr ∧ (0x1F#8).getLsbD 4 = true ∧
    (Instr.cAddi 1#5 1#6).ext ∈ [Ext.i, .m, .a, .zifencei, .c] ∧
    (∃ t, exec (.csrrw 5#5 3#12 6#5) floats = .next t) ∧ (∃ t, exec (.faddS 3#5 1#5 2#5 .dyn) floats = .next t) ∧
    ∃ t, exec (.cAddi 1#5 1#6) floats = .next t :=
  ⟨by decide, by decide, by decide, by decide, ⟨_, rfl⟩, ⟨_, rfl⟩, ⟨_, rfl⟩⟩

/-- A store to the reserved word, and a store-conditional. -/
theorem witness_WritesEndReservations :
    (∃ t, exec (.sb 1#5 0#5 0xFFF#12) busy = .next t ∧ t.outcome = some .advanced ∧
      t.env.requests = [.writeWord 0xFFFFFFFC#32 0#32 0b1000#4]) ∧
    ∃ t, exec (.scW 0#1 0#1 3#5 0#5 4#5) busy = .next t ∧ t.outcome = some .advanced ∧
      t.env.requests = [.storeReserved 0#32 0#32] :=
  ⟨⟨_, rfl, rfl, by decide +kernel⟩, ⟨_, rfl, rfl, by decide +kernel⟩⟩

/-- An image of the instance's own FLEN, saved of a core that holds FLEN bits, and one of another FLEN. -/
theorem witness_EmbedderRestores :
    ({ base [] with schedule := [[.restore floats.image], []] } : State).schedule = [.restore floats.image] :: [[]] ∧
    floats.image.flen = (base []).cfg.flen ∧ floats.cpu.wf floats.cfg.flen ∧
    ({ floats.image with flen := .w32, f := Vector.replicate 32 0#32 } : CpuImage).flen ≠ (base []).cfg.flen :=
  ⟨rfl, rfl, by decide +kernel, by decide⟩

/-- A restored image gives each register back; one of another FLEN gives none (R59, R802). -/
theorem test_restore :
    (restoreImage floats.image (base [])).cpu = floats.cpu ∧
    (restoreImage { floats.image with flen := .w32, f := Vector.replicate 32 0#32 } (base [])).cpu = (base []).cpu := by
  decide +kernel

end Sys2Proof.Tests
end

section
/-! SUPPORT. FSQRT behind its one `SqrtMode` request (R421). -/
namespace Sys2Proof.Machine

variable {s : State} {e : Env} {fmt : Fmt}

/-- The script's mode is the answer, and the usual one where the script holds no mode (R18). -/
theorem sqrtMode_eq {mode : SqrtMode}
    (h : e.reply 0 = .sqrt mode ∨ (∀ q, e.reply 0 ≠ .sqrt q) ∧ mode = SqrtModes.get e.sqrtModes fmt) :
    sqrtMode fmt e = .ok mode (e.issue (.sqrtMode fmt)) := by
  rw [← Env.nextReply_eq_reply] at h
  rcases h with h | ⟨hn, rfl⟩
  · simp only [sqrtMode, h]
  · unfold sqrtMode
    split
    · exact absurd ‹_› (hn _)
    · rfl

/-- With the rounding mode resolved and the request answered, only the answer's verdict is left (R421, R434). -/
theorem fpSqrt_eq {rm : Rm} {m : RoundingMode} (hm : RoundsBy s rm m) {mode : SqrtMode}
    (h : sqrtMode fmt s.env = .ok mode (s.env.issue (.sqrtMode fmt))) (inst : Word) (rd rs1 : FReg) :
    fpSqrt fmt inst rd rs1 rm s =
      finish 4 ((orIllegal inst (sqrtUnder fmt (readFp s.cfg.flen s.cpu fmt rs1) m mode)
        (s.env.issue (.sqrtMode fmt))).andThen fun r e => .ok (fpWrites s rd r) e) s := by
  rw [fpSqrt, resolveRm_of_roundsBy hm, orIllegal, Attempt.andThen_ok, h, Attempt.andThen_ok]

/-- A fast root of a positive number is the accurate one, moved by at most two patterns (92 D20). -/
theorem fastSqrt_near {a : BitVec fmt.width} (rm : RoundingMode) {v : ℚ} (ha : finiteValue a = some v) (hv : 0 < v) :
    ∃ k ≤ 4, (fastSqrt a rm).1 + 2#fmt.width = (fsqrt a rm).1 + BitVec.ofNat fmt.width k := by
  obtain ⟨neg, m, x, hu, rfl⟩ := finiteValue_eq_some ha
  have hm : m ≠ 0 := fun h => hv.ne' (number_eq_zero.2 h)
  obtain rfl : neg = false := by
    cases neg
    · rfl
    · have : (0 : ℚ) ≤ m * 2 ^ x := by positivity
      simp at hv
      linarith
  refine ⟨(Config.fastSqrtOffset fmt (a.setWidth 128) rm).val, by omega, ?_⟩
  simp only [fastSqrt, fsqrt, hu, if_neg hm, Bool.false_eq_true, if_false]
  exact BitVec.sub_add_cancel _ _

section
variable {rm : Rm} {m : RoundingMode} {mode : SqrtMode} {inst : Word} {rd rs1 : FReg}
  {out : Host.Outcome State Fault Refusal}

/-- An answer that gives a root: it is written boxed, its flags accrued, after the one request (R406, R416, R421). -/
theorem fpSqrt_retires (ho : out = fpSqrt fmt inst rd rs1 rm s) (hm : RoundsBy s rm m)
    (h : sqrtMode fmt s.env = .ok mode (s.env.issue (.sqrtMode fmt))) {r : FpResult fmt}
    (hr : sqrtUnder fmt (readFp s.cfg.flen s.cpu fmt rs1) m mode = some r) :
    ∃ t, out = .next t ∧ Retires s t (s.cpu.pc + 4#32) none (some (rd, (boxedResult s r).1))
      (s.cpu.fcsr ||| r.2.setWidth 8) ∧ s.env.Asked t.env [.sqrtMode fmt] := by
  rw [ho, fpSqrt_eq hm h, hr]
  exact ⟨_, rfl, retires_commit s 4 (fpWrites s rd r) _, s.env.asked_issue _⟩

/-- An answer that gives none: IllegalInstruction, after the one request (R421). -/
theorem fpSqrt_illegal (ho : out = fpSqrt fmt inst rd rs1 rm s) (hm : RoundsBy s rm m)
    (h : sqrtMode fmt s.env = .ok mode (s.env.issue (.sqrtMode fmt)))
    (hr : sqrtUnder fmt (readFp s.cfg.flen s.cpu fmt rs1) m mode = none) :
    ∃ e t, s.env.Asked e [.sqrtMode fmt] ∧ out = .next t ∧
      Delivers { s with env := e } t (.core .illegalInstruction inst) := by
  rw [ho, fpSqrt_eq hm h, hr]
  exact ⟨_, _, s.env.asked_issue _, rfl, delivers_deliver _ _⟩

/-- FSQRT under each of the three answers, for every format (R421, 92 D20). -/
theorem fpSqrt_by_mode (ho : out = fpSqrt fmt inst rd rs1 rm s) (hm : RoundsBy s rm m)
    (h : s.env.reply 0 = .sqrt mode ∨
      (∀ q, s.env.reply 0 ≠ .sqrt q) ∧ mode = SqrtModes.get s.env.sqrtModes fmt) :
    let a := readFp s.cfg.flen s.cpu fmt rs1
    (mode = .accurate → fmt ≠ .q → ∃ t, out = .next t ∧
      Retires s t (s.cpu.pc + 4#32) none (some (rd, (boxedResult s (fsqrt a m)).1))
        (s.cpu.fcsr ||| (fsqrt a m).2.setWidth 8) ∧ s.env.Asked t.env [.sqrtMode fmt]) ∧
    (mode = .fast → ∃ (r : FpResult fmt) (t : State), out = .next t ∧
      Retires s t (s.cpu.pc + 4#32) none (some (rd, (boxedResult s r).1)) (s.cpu.fcsr ||| r.2.setWidth 8) ∧
      s.env.Asked t.env [.sqrtMode fmt] ∧
      ∀ v, finiteValue a = some v → 0 < v →
        ∃ k ≤ 4, r.1 + 2#fmt.width = (fsqrt a m).1 + BitVec.ofNat fmt.width k) ∧
    (mode = .illegal ∨ mode = .accurate ∧ fmt = .q → ∃ e t, s.env.Asked e [.sqrtMode fmt] ∧ out = .next t ∧
      Delivers { s with env := e } t (.core .illegalInstruction inst)) := by
  intro a
  have h := sqrtMode_eq h
  refine ⟨?_, ?_, ?_⟩
  · rintro rfl hq
    exact fpSqrt_retires ho hm h (if_neg hq)
  · rintro rfl
    obtain ⟨t, hn, ht, ha⟩ := fpSqrt_retires ho hm h (r := fastSqrt a m) rfl
    exact ⟨fastSqrt a m, t, hn, ht, ha, fun v => fastSqrt_near m⟩
  · rintro (rfl | ⟨rfl, hq⟩)
    · exact fpSqrt_illegal ho hm h rfl
    · exact fpSqrt_illegal ho hm h (if_pos hq)

end

/-- Settles O32: the three FSQRT are one shape, and `fpSqrt_by_mode` says what it does under each answer. -/
theorem fpSquareRoots : Obligations.FpSquareRoots := by
  intro s rd rs1 rm m mode hm p hp a h
  simp only [List.mem_cons, List.not_mem_nil, or_false] at hp
  rcases hp with rfl | rfl | rfl
  · exact fpSqrt_by_mode (fmt := .s) rfl hm h
  · exact fpSqrt_by_mode (fmt := .d) rfl hm h
  · exact fpSqrt_by_mode (fmt := .q) rfl hm h

end Sys2Proof.Machine
end

section
/-! SUPPORT. Which requests leave a reservation standing, and that after an instruction's requests the word still
reserved was spared by each (R12, R14, R58, R335). -/
namespace Sys2Proof.Machine

/-- The request leaves a reservation of the word at `r` standing: it writes another word or none, and is no
store-conditional (R12, R14). -/
def Request.spares (r : Word) : Request → Bool
  | .writeWord a _ _ => a != r
  | .storeReserved _ _ => false
  | .charge _ | .readWord _ | .loadReserved _ | .csrRead _ _ | .csrWrite _ _ _ | .sqrtMode _ | .trap _ => true

/-- The request spares every reservation. -/
def Request.sparesAll : Request → Bool
  | .writeWord _ _ _ | .storeReserved _ _ => false
  | .charge _ | .readWord _ | .loadReserved _ | .csrRead _ _ | .csrWrite _ _ _ | .sqrtMode _ | .trap _ => true

theorem Request.spares_of_sparesAll {q : Request} (h : q.sparesAll = true) (r : Word) : q.spares r = true := by
  cases q with
  | writeWord | storeReserved => cases h
  | charge | readWord | loadReserved | csrRead | csrWrite | sqrtMode | trap => rfl

/-- `e'` is `e` after some requests, each of which spared the word that is reserved in `e'`. -/
def Env.Spared (e e' : Env) : Prop :=
  ∃ l, e'.requests = e.requests ++ l ∧ ∀ r, e'.reservation = some r → ∀ q ∈ l, q.spares r = true

/-- The same, and the word was reserved before: no request reserved it. -/
def Env.Kept (e e' : Env) : Prop :=
  ∃ l, e'.requests = e.requests ++ l ∧
    ∀ r, e'.reservation = some r → e.reservation = some r ∧ ∀ q ∈ l, q.spares r = true

variable {e e' e'' : Env} {P : Request → Bool}

theorem Env.Kept.spared (h : e.Kept e') : e.Spared e' := by
  obtain ⟨l, hl, hr⟩ := h
  exact ⟨l, hl, fun r h => (hr r h).2⟩

theorem Env.Kept.refl (e : Env) : e.Kept e := ⟨[], by simp, fun _ h => ⟨h, by simp⟩⟩

/-- What stands after the later requests stood after the earlier ones. -/
theorem Env.Kept.trans (h : e.Kept e') (h' : e'.Kept e'') : e.Kept e'' := by
  obtain ⟨l, hl, hr⟩ := h
  obtain ⟨l', hl', hr'⟩ := h'
  refine ⟨l ++ l', by rw [hl', hl, List.append_assoc], fun r hres => ?_⟩
  obtain ⟨hres', hq'⟩ := hr' r hres
  obtain ⟨hres, hq⟩ := hr r hres'
  exact ⟨hres, fun q h => (List.mem_append.1 h).elim (hq q) (hq' q)⟩

/-- Requests none of which writes spare whatever is reserved in the end. -/
theorem Env.Reach.spared {o : Option Nat} (h : Env.Reach Request.sparesAll e o e') : e.Spared e' := by
  obtain ⟨l, hl, hp, -⟩ := h.requests
  exact ⟨l, hl, fun r _ q hq => Request.spares_of_sparesAll (hp q hq) r⟩

/-! ### Attempts -/

/-- A request that goes on with its value was answered. -/
theorem request_eq_ok {α : Type} {q : Request} {k : Reply → Env → Attempt α} {v : α}
    (h : request q k e = .ok v e') : k e.nextReply (e.issue q) = .ok v e' := by
  rcases request_cases q k e with ⟨t, -, ht⟩ | ⟨-, hk⟩
  · rw [ht] at h; cases h
  · rw [← hk, h]

theorem readWord_kept {a v : Word} (h : readWord a e = .ok v e') : e.Kept e' := by
  cases request_eq_ok h
  exact ⟨[.readWord a], rfl, fun r hr => ⟨hr, by simp [Request.spares]⟩⟩

/-- A write spares the reservation of another word only (R12). -/
theorem writeWord_kept {a v : Word} {be : BitVec 4} {u : Unit} (h : writeWord a v be e = .ok u e') : e.Kept e' := by
  cases request_eq_ok h
  refine ⟨[.writeWord a v be], by simp, fun r hr => ?_⟩
  rw [Env.store_reservation, Env.issue_reservation] at hr
  split at hr
  · cases hr
  · have : a ≠ r := fun ha => ‹¬ e.reservation = some a› (ha ▸ hr)
    exact ⟨hr, by simpa [Request.spares] using this⟩

theorem writeWords_kept {ws : List Word} {a : Word} {u : Unit} (h : writeWords ws a e = .ok u e') : e.Kept e' := by
  induction ws generalizing a e with
  | nil => cases h; exact .refl _
  | cons w ws ih =>
    obtain ⟨_, e1, h1, h2⟩ := Attempt.andThen_eq_ok h
    exact (writeWord_kept h1).trans (ih h2)

theorem memWrite_kept {sz : Size} {a : Word} {v : BitVec 128} {u : Unit} (h : memWrite sz a v e = .ok u e') :
    e.Kept e' := by
  unfold memWrite at h
  split at h
  · cases sz with
    | byte | half | word => exact writeWord_kept h
    | double | quad => exact writeWords_kept h
  · cases h

/-- A store-conditional leaves nothing reserved, whether it succeeds or fails (R14, R335). -/
theorem storeReserved_releases {a v : Word} {b : Bool} (h : storeReserved a v e = .ok b e') :
    e'.requests = e.requests ++ [.storeReserved a v] ∧ e'.reservation = none := by
  have h := request_eq_ok h
  split at h
  · cases h; exact ⟨by simp, rfl⟩
  · cases h; exact ⟨rfl, rfl⟩

/-- A delegated CSR access makes no request but the CSR's read and write. -/
theorem delegatedCsrOp_reaches_of {n : BitVec 12} (hr : ∀ k, P (.csrRead n k) = true)
    (hw : ∀ v k, P (.csrWrite n v k) = true) (reads writes : Bool) (f : Word → Word) (rd : XReg) (e : Env) :
    (delegatedCsrOp n reads writes f rd e).Reaches P e := by
  refine Attempt.Reaches.andThen ?_ fun old e => Attempt.Reaches.andThen ?_ fun _ e => Env.Reach.refl
  · split
    · exact csrRead_reaches _ _ _ (hr _)
    · exact Env.Reach.refl
  · split
    · exact csrWrite_reaches _ _ _ _ (hw _ _)
    · exact Env.Reach.refl

/-! ### Instructions -/

/-- An execution from `s`: if it commits, the word then reserved was spared by each of its requests. -/
def Spares (s : State) (out : Host.Outcome State Fault Refusal) : Prop :=
  ∃ len a, out = finish len a s ∧ ∀ w e, a = .ok w e → s.env.Spared e

variable {s : State} {out : Host.Outcome State Fault Refusal} {len : Nat}

/-- An instruction that writes no memory. -/
theorem spares_of_reaches {a : Attempt Writes} (ho : out = finish len a s)
    (h : a.Reaches Request.sparesAll s.env) : Spares s out :=
  ⟨len, a, ho, fun w e ha => by subst ha; exact Env.Reach.spared h⟩

/-- An instruction that asks nothing and retires. -/
theorem spares_retire {w : Writes} (ho : out = retire len w s) : Spares s out :=
  spares_of_reaches ho Env.Reach.refl

theorem spares_raise {c : Cause} {info : Word} (ho : out = finish len (raise c info s.env) s) : Spares s out :=
  spares_of_reaches ho (raise_reaches _ _ _)

theorem spares_load {sz : Size} {a : Word} {k : BitVec 128 → Env → Writes}
    (ho : out = finish len ((memRead sz a s.env).andThen fun v e => .ok (k v e) e) s) : Spares s out :=
  spares_of_reaches ho ((memRead_reaches (fun _ => rfl) _ _ _).andThen fun _ _ => Env.Reach.refl)

theorem spares_store {sz : Size} {a : Word} {v : BitVec 128}
    (ho : out = finish len ((memWrite sz a v s.env).andThen fun _ e => .ok {} e) s) : Spares s out :=
  ⟨len, _, ho, fun w e h => by
    obtain ⟨_, e1, h1, h2⟩ := Attempt.andThen_eq_ok h
    cases h2; exact (memWrite_kept h1).spared⟩

theorem spares_withMode {inst : Word} {rm : Rm} {w : RoundingMode → Writes} (ho : out = withMode inst rm w s) :
    Spares s out :=
  spares_of_reaches ho ((orIllegal_reaches _ _ _).andThen fun _ _ => Env.Reach.refl)

theorem spares_fpSqrt {fmt : Fmt} {inst : Word} {rd rs1 : FReg} {rm : Rm} (ho : out = fpSqrt fmt inst rd rs1 rm s) :
    Spares s out :=
  spares_of_reaches ho ((orIllegal_reaches _ _ _).andThen fun _ _ => (sqrtMode_reaches _ _ rfl).andThen fun _ _ =>
    (orIllegal_reaches _ _ _).andThen fun _ _ => Env.Reach.refl)

theorem spares_csrOp {inst : Word} {n : BitVec 12} {reads writes : Bool} {f : Word → Word} {rd : XReg}
    (ho : out = csrOp inst n reads writes f rd s) : Spares s out := by
  refine spares_of_reaches ho ?_
  split
  · unfold fpCsrOp
    split
    · exact Env.Reach.refl
    · exact raise_reaches _ _ _
  · exact delegatedCsrOp_reaches_of (fun _ => rfl) (fun _ _ => rfl) _ _ _ _ _

/-- The new reservation is made by a request that writes nothing (R13). -/
theorem spares_lrW (aq rl : BitVec 1) (rd rs1 : XReg) : Spares s (execLrW aq rl rd rs1 s) := by
  refine spares_of_reaches rfl ?_
  split
  · exact (loadReserved_reaches _ _ rfl (wordAddr_of_aligned ‹_›)).andThen fun _ _ => Env.Reach.refl
  · exact raise_reaches _ _ _

theorem spares_scW (aq rl : BitVec 1) (rd rs1 rs2 : XReg) : Spares s (execScW aq rl rd rs1 rs2 s) := by
  refine ⟨4, _, rfl, fun w e h => ?_⟩
  split at h
  · obtain ⟨_, e1, h1, h2⟩ := Attempt.andThen_eq_ok h
    cases h2
    obtain ⟨hq, hr⟩ := storeReserved_releases h1
    exact ⟨_, hq, fun r h => by rw [hr] at h; cases h⟩
  · cases h

theorem spares_amo {op : Word → Word → Word} {rd rs1 rs2 : XReg} (ho : out = amo op rd rs1 rs2 s) : Spares s out := by
  refine ⟨4, _, ho, fun w e h => ?_⟩
  split at h
  · obtain ⟨_, e1, h1, h2⟩ := Attempt.andThen_eq_ok h
    obtain ⟨_, e2, h2, h3⟩ := Attempt.andThen_eq_ok h2
    cases h3
    exact ((readWord_kept h1).trans (writeWord_kept h2)).spared
  · cases h

/-- Every instruction that commits leaves reserved only a word that each of its requests spared. -/
theorem exec_spares (i : Instr) (s : State) : Spares s (exec i s) := by
  cases i with
  | lui | auipc | jal | jalr | beq | bne | blt | bge | bltu | bgeu | addi | slti | sltiu | xori | ori | andi | slli
  | srli | srai | add | sub | sll | slt | sltu | xor | srl | sra | or | and | mul | mulh | mulhsu | mulhu | div | divu
  | rem | remu | fence | fenceI | cAddi4spn | cNop | cAddi | cLi | cAddi16sp | cLui | cSrli | cSrai
  | cAndi | cSub | cXor | cOr | cAnd | cSlli | cMv | cAdd | cJal | cJ | cJr | cJalr | cBeqz | cBnez =>
    exact spares_retire rfl
  | ecall | ebreak => exact spares_raise (len := 4) rfl
  | cEbreak => exact spares_raise (len := 2) rfl
  | fmvXW | fmvWX | fsgnjS | fsgnjnS | fsgnjxS | fminS | fmaxS | fsgnjD | fsgnjnD | fsgnjxD | fminD | fmaxD | fsgnjQ
  | fsgnjnQ | fsgnjxQ | fminQ | fmaxQ | feqS | fltS | fleS | feqD | fltD | fleD | feqQ | fltQ | fleQ | fclassS
  | fclassD | fclassQ =>
    exact spares_retire rfl
  | fmaddS | fmsubS | fnmsubS | fnmaddS | fmaddD | fmsubD | fnmsubD | fnmaddD | fmaddQ | fmsubQ | fnmsubQ | fnmaddQ
  | faddS | fsubS | fmulS | fdivS | faddD | fsubD | fmulD | fdivD | faddQ | fsubQ | fmulQ | fdivQ | fcvtWS | fcvtWuS
  | fcvtWD | fcvtWuD | fcvtWQ | fcvtWuQ | fcvtSW | fcvtSWu | fcvtDW | fcvtDWu | fcvtQW | fcvtQWu | fcvtSD | fcvtDS
  | fcvtSQ | fcvtQS | fcvtDQ | fcvtQD =>
    exact spares_withMode rfl
  | fsqrtS | fsqrtD | fsqrtQ => exact spares_fpSqrt rfl
  | lb | lh | lw | lbu | lhu | cLw | cLwsp | flw | fld | flq | cFld | cFlw | cFldsp | cFlwsp =>
    exact spares_load rfl
  | sb | sh | sw | cSw | cSwsp | fsw | fsd | fsq | cFsd | cFsw | cFsdsp | cFswsp => exact spares_store rfl
  | csrrw | csrrs | csrrc | csrrwi | csrrsi | csrrci => exact spares_csrOp rfl
  | lrW aq rl rd rs1 => exact spares_lrW aq rl rd rs1
  | scW aq rl rd rs1 rs2 => exact spares_scW aq rl rd rs1 rs2
  | amoswapW | amoaddW | amoxorW | amoandW | amoorW | amominW | amomaxW | amominuW | amomaxuW =>
    delta exec
    exact spares_amo rfl

/-- A trap's delivery is no retirement (R700). -/
theorem deliver_not_advanced (tr : Trap) (s : State) : (deliver tr s).outcome ≠ some .advanced := by
  rw [deliver_outcome]
  cases s.env.trapAnswer <;> simp [outcomeOf]

/-- Settles O59: a word still reserved was spared by every request (`exec_spares`), and no write of it, and no
store-conditional at all, spares it. -/
theorem writesEndReservations : Obligations.WritesEndReservations := by
  intro i s t ht hadv
  obtain ⟨len, a, ho, ha⟩ := exec_spares i s
  rcases finish_cases len a s with ⟨w, e, hok, hf⟩ | ⟨tr, e, -, hf⟩
  · obtain rfl : t = commit len w { s with env := e } := by rw [ho, hf] at ht; cases ht; rfl
    obtain ⟨l, hl, hs⟩ := ha w e hok
    refine ⟨l, hl, fun r v be hq hr => ?_, fun r v hq => ?_⟩
    · simpa [Request.spares] using hs r hr _ hq
    · refine Option.eq_none_iff_forall_ne_some.2 fun r' hr => ?_
      simpa [Request.spares] using hs r' hr _ hq
  · obtain rfl : t = deliver tr { s with env := e } := by rw [ho, hf] at ht; cases ht; rfl
    exact absurd hadv (deliver_not_advanced _ _)

end Sys2Proof.Machine
end

section
/-! SUPPORT. Which answer of the environment stops a step: for any request of any step, then for the fetches and for
each request of the memory, atomic and CSR instructions (R10, R709, R710, R713). -/
namespace Sys2Proof.Machine

/-! ### Any step -/

/-- A step committed and none of its requests was refused; or it delivered one trap, which is the environment's exactly
when the last request before `Trap` was refused (R709, R710). -/
theorem step_ends {s t : State} (h : step s = .next t) :
    (t.outcome = some .advanced ∧ ∀ k q n, t.env.requests[k]? = some q → q.canFail = true →
      (beginStep s).env.reply k ≠ .envTrap n) ∨
    ∃ tr l, (t.outcome = some (.trapped tr) ∨ t.outcome = some (.halted tr)) ∧ t.cpu = (beginStep s).cpu ∧
      t.env.requests = l ++ [.trap tr] ∧
      (∀ k q n, l[k]? = some q → q.canFail = true → (beginStep s).env.reply k = .envTrap n →
        tr = .env n ∧ l.length = k + 1) ∧
      ∀ n, tr = .env n → ∃ k q, l[k]? = some q ∧ q.canFail = true ∧ (beginStep s).env.reply k = .envTrap n := by
  obtain ⟨len, a, hs, hreach, -⟩ := step_runs s
  obtain ⟨l, hl, -, -, hstop, hrefused⟩ := hreach.reach.requests
  have hl : a.env.requests = l := hl
  rw [hs] at h
  cases a with
  | ok w e =>
    cases h
    exact .inl ⟨rfl, fun k q n hk hc hr => by cases (hstop k q n (hl ▸ hk) hc hr).1⟩
  | trap tr e =>
    cases h
    refine .inr ⟨tr, l, ?_, rfl, by rw [← hl]; rfl, fun k q n hk hc hr => ?_,
      fun n htr => hrefused n (by rw [htr]; rfl)⟩
    · rw [deliver_outcome]
      cases ({ beginStep s with env := e } : State).env.trapAnswer <;> simp [outcomeOf]
    · obtain ⟨ht, hlen⟩ := hstop k q n hk hc hr
      cases tr with
      | core => cases ht
      | env => cases ht; exact ⟨rfl, hlen⟩

/-- An outcome with the environment's value has a refused request behind it. -/
theorem step_outcome_env {s t : State} (h : step s = .next t) {n : Nat}
    (ho : t.outcome = some (.trapped (.env n)) ∨ t.outcome = some (.halted (.env n))) :
    ∃ k q, t.env.requests[k]? = some q ∧ q.canFail = true ∧ (beginStep s).env.reply k = .envTrap n := by
  rcases step_ends h with ⟨hadv, -⟩ | ⟨tr, l, htr, -, hq, -, hrefused⟩
  · simp [hadv] at ho
  · have : tr = .env n := by rcases ho with ho | ho <;> simpa [ho, eq_comm] using htr
    obtain ⟨k, q, hk, hc, hr⟩ := hrefused n this
    obtain ⟨hlt, -⟩ := List.getElem?_eq_some_iff.1 hk
    exact ⟨k, q, by rw [hq, List.getElem?_append_left hlt, hk], hc, hr⟩

/-- A refused request is the last before `Trap`, which forwards its value. -/
theorem step_refused {s t : State} (h : step s = .next t) {k : Nat} {q : Request} {n : Nat}
    (hk : t.env.requests[k]? = some q) (hc : q.canFail = true) (hr : (beginStep s).env.reply k = .envTrap n) :
    StoppedBy (beginStep s) t (t.env.requests.take (k + 1)) n := by
  rcases step_ends h with ⟨-, hnone⟩ | ⟨tr, l, htr, hcpu, hq, hstop, -⟩
  · exact absurd hr (hnone k q n hk hc)
  · have hk' : l[k]? = some q := by
      rw [hq, List.getElem?_append] at hk
      split at hk
      · exact hk
      · obtain rfl : q = .trap tr := List.mem_singleton.1 (List.mem_of_getElem? hk)
        cases hc
    obtain ⟨rfl, hlen⟩ := hstop k q n hk' hc hr
    refine ⟨htr, hcpu, ?_⟩
    rw [hq, ← hlen, List.take_left' rfl]
    rfl

/-! ### The fetches (R91, R704) -/

variable {s : State} {e : Env} {k n : Nat} {qs : List Request}

/-- The front end stopped is the step stopped. -/
theorem step_stops (h : (frontEnd (beginStep s)).Stops (beginStep s).env n qs) :
    ∃ t, step s = .next t ∧ StoppedBy (beginStep s) t qs n := by
  obtain ⟨e, he, hq⟩ := h
  refine finish_stops (len := 4) (a := .trap (.env n) e) ?_ ⟨e, rfl, hq⟩
  rw [step, stepFrom, he]
  rfl

/-- Past an answered `Charge(Fetch)` and an aligned pc the front end is stopped where the fetch is. -/
theorem frontEnd_stops (ha : pcAligned s.cfg s.env.gates s.cpu.pc = true) (hn : s.env.noTrapIn 1)
    (h : (fetchBits s.cpu.pc (s.env.issue (.charge .fetch))).Stops (s.env.issue (.charge .fetch)) n qs) :
    (frontEnd s).Stops s.env n (.charge .fetch :: qs) := by
  refine Attempt.Stops.after (l := [.charge .fetch]) (request_of_noTrap hn) rfl ?_
  rw [if_pos ha]
  exact h.andThen

theorem fetchBits_stops_first (pc : Word) (hr : e.reply 0 = .envTrap n) :
    (fetchBits pc e).Stops e n [.readWord (wordAddr pc)] :=
  (readWord_stops _ hr).andThen.andThen

/-- The parcel at `a` of the word it lies in (R91). -/
def parcelOf (a w : Word) : Parcel := if a.getLsbD 1 then w.extractLsb' 16 16 else w.extractLsb' 0 16

theorem fetchParcel_of_noTrap {m : Nat} (h : e.noTrapIn (m + 1)) (a : Word) :
    fetchParcel a e = .ok (parcelOf a (e.wordAt 0 (wordAddr a))) (e.issue (.readWord (wordAddr a))) := by
  rw [fetchParcel, readWord_of_noTrap h, Attempt.andThen_ok]
  rfl

/-- The second parcel is asked for when the first says that there is one. -/
theorem fetchBits_stops_second {pc : Word} (hn : e.noTrapIn 1) (hr : e.reply 1 = .envTrap n)
    (hp : (parcelOf pc (e.wordAt 0 (wordAddr pc))).extractLsb' 0 2 = 0b11#2) :
    (fetchBits pc e).Stops e n [.readWord (wordAddr pc), .readWord (wordAddr (pc + 2#32))] := by
  refine Attempt.Stops.after (l := [.readWord (wordAddr pc)]) (fetchParcel_of_noTrap hn pc) rfl ?_
  rw [if_pos hp]
  exact (readWord_stops _ (by rw [Env.reply_issue]; exact hr)).andThen.andThen

theorem pcAligned_of_even {cfg : Config} {g : Gates} {pc : Word} (h0 : pc.getLsbD 0 = false)
    (h1 : pc.getLsbD 1 = true → cfg.cImplemented = true ∧ g.c = true) : pcAligned cfg g pc = true := by
  unfold pcAligned cEnabled
  cases hh : pc.getLsbD 1 with
  | false => rw [h0]; rfl
  | true => obtain ⟨h3, h4⟩ := h1 hh; rw [h0, h3, h4]; rfl

/-! ### Instructions -/

/-- The `k`-th request of `qs`, the requests the instruction makes, is the one that stops it with `n`. -/
def StopsAt (s : State) (k n : Nat) (out : Host.Outcome State Fault Refusal) (qs : List Request) : Prop :=
  k < qs.length → ∃ t, out = .next t ∧ StoppedBy s t (qs.take (k + 1)) n

/-- A register a 3-bit field names (R601). -/
theorem creg_eq_cfield (r : CReg) : creg r = cfield r := by
  revert r
  decide

/-- A scaled offset is the field times its unit (R99, R601). -/
theorem zext_scaled (j : Nat) {w : Nat} (v : BitVec w) : zext (scaled j v) = BitVec.ofNat 32 (2 ^ j * v.toNat) := by
  apply BitVec.eq_of_toNat_eq
  simp [zext, scaled, BitVec.toNat_append, Nat.shiftLeft_eq, Nat.mul_comm]

theorem effAddr_creg (c : Cpu) (r : CReg) (j : Nat) {w : Nat} (v : BitVec w) :
    effAddr c (creg r) (zext (scaled j v)) = c.readX (cfield r) + BitVec.ofNat 32 (2 ^ j * v.toNat) := by
  rw [effAddr, zext_scaled, creg_eq_cfield]

theorem effAddr_sp (c : Cpu) (j : Nat) {w : Nat} (v : BitVec w) :
    effAddr c spReg (zext (scaled j v)) = c.readX 2#5 + BitVec.ofNat 32 (2 ^ j * v.toNat) := by
  rw [effAddr, zext_scaled, spReg]

theorem laneOf_word {a : Word} (ha : a.toNat % 4 = 0) : laneOf a = 0 := by rw [laneOf_eq, ha]

theorem wordAddr_word {a : Word} (ha : a.toNat % 4 = 0) : wordAddr a = a :=
  wordAddr_of_aligned ((aligned_iff .word a).2 ha)

/-- The data of a narrow store of an x register: its low bytes, moved to their lane (R85, R220 to R222). -/
theorem storeData_narrow (sz : Size) (a v : Word) : storeData sz a (v.setWidth 128) =
    (v &&& BitVec.ofNat 32 (2 ^ (8 * sz.bytes) - 1)) <<< (8 * (a.toNat % 4)) := by
  have : ((v.setWidth 128).setWidth (8 * sz.bytes)).setWidth 32 = v &&& BitVec.ofNat 32 (2 ^ (8 * sz.bytes) - 1) := by
    apply BitVec.eq_of_getLsbD_eq
    intro i hi
    have : i < 128 := by omega
    simp only [BitVec.getLsbD_setWidth, BitVec.getLsbD_and, BitVec.getLsbD_ofNat, Nat.testBit_two_pow_sub_one, hi, this,
      decide_true, Bool.true_and, Bool.and_comm]
  rw [storeData, this, laneOf_eq]

theorem storeData_word {a : Word} (ha : a.toNat % 4 = 0) (v : BitVec 128) : storeData .word a v = v.setWidth 32 := by
  rw [storeData, laneOf_word ha]
  simp [Size.bytes]

theorem byteEnable_word {a : Word} (ha : a.toNat % 4 = 0) : byteEnable .word a = 0b1111#4 := by
  rw [byteEnable, laneOf_word ha]
  rfl

/-! One word at its own address, and a value of a format word by word. -/

section
variable {fmt : Fmt} {a : Word} (ha : a.toNat % 4 = 0)
include ha

theorem memRead_word_stops (hr : e.reply 0 = .envTrap n) : (memRead .word a e).Stops e n [.readWord a] := by
  simpa only [wordAddr_word ha] using memRead_narrow_stops (sz := .word) (by decide) ((aligned_iff _ _).2 ha) hr

theorem memWrite_word_stops (v : BitVec 128) (hr : e.reply 0 = .envTrap n) :
    (memWrite .word a v e).Stops e n [.writeWord a (v.setWidth 32) 0b1111#4] := by
  simpa only [wordAddr_word ha, storeData_word ha, byteEnable_word ha] using
    memWrite_narrow_stops (sz := .word) (by decide) ((aligned_iff _ _).2 ha) v hr

variable (hn : e.noTrapIn k) (hr : e.reply k = .envTrap n)
include hn hr

theorem memRead_fmt_stops (hk : k < fmt.width / 32) :
    (memRead (fmtSize fmt) a e).Stops e n
      (((List.range (fmt.width / 32)).map fun j => .readWord (a + BitVec.ofNat 32 (4 * j))).take (k + 1)) := by
  cases fmt with
  | s =>
    obtain rfl : k = 0 := by simpa [Fmt.width] using hk
    simpa [Fmt.width, fmtSize] using memRead_word_stops ha hr
  | d => exact memRead_wide_stops (sz := .double) (by decide) ((aligned_iff _ _).2 ha) hk hn hr
  | q => exact memRead_wide_stops (sz := .quad) (by decide) ((aligned_iff _ _).2 ha) hk hn hr

theorem memWrite_fmt_stops (v : BitVec 128) (hk : k < fmt.width / 32) :
    (memWrite (fmtSize fmt) a v e).Stops e n (((List.range (fmt.width / 32)).map fun j =>
      .writeWord (a + BitVec.ofNat 32 (4 * j)) (v.extractLsb' (32 * j) 32) 0b1111#4).take (k + 1)) := by
  cases fmt with
  | s =>
    obtain rfl : k = 0 := by simpa [Fmt.width] using hk
    simpa [Fmt.width, fmtSize, low_word] using memWrite_word_stops ha v hr
  | d => exact memWrite_wide_stops (sz := .double) (by decide) ((aligned_iff _ _).2 ha) v hk hn hr
  | q => exact memWrite_wide_stops (sz := .quad) (by decide) ((aligned_iff _ _).2 ha) v hk hn hr

end

/-- The words of a raw read are the register's own (R432). -/
theorem readRaw_word (c : Cpu) {fmt : Fmt} (r : FReg) {j : Nat} (hj : j < fmt.width / 32) :
    ((readRaw c fmt r).setWidth 128).extractLsb' (32 * j) 32 = (c.readF r).extractLsb' (32 * j) 32 := by
  apply BitVec.eq_of_getLsbD_eq
  intro i hi
  have hw : fmt.width ≤ 128 := by cases fmt <;> decide
  have h1 : 32 * j + i < fmt.width := by omega
  have h2 : 32 * j + i < 128 := by omega
  simp [readRaw, BitVec.getLsbD_extractLsb', h1, h2]

/-- Reads and writes, as the kind of a delegated CSR access (R351). -/
theorem accessKind_eq (reads writes : Bool) : accessKind reads writes =
    if reads && writes then .readWrite else if reads then .readOnly else .writeOnly := by
  cases reads <;> cases writes <;> rfl

/-- A number that names none of the three FP CSRs is delegated (R350). -/
theorem fpCsrOf_eq_none {csr : BitVec 12} (h : csr ∉ [0x001#12, 0x002#12, 0x003#12]) : fpCsrOf csr = none := by
  unfold fpCsrOf
  split <;> simp_all

theorem bne_zero (r : BitVec 5) : (r != 0#5) = decide (r ≠ 0#5) := by
  by_cases h : r = 0#5 <;> simp [h]

theorem csrRead_of_noTrap {m : Nat} (h : e.noTrapIn (m + 1)) (csr : BitVec 12) (kind : AccessKind) :
    csrRead csr kind e =
      .ok ((e.reply 0).wordOr (Store.read e.csrs csr.toNat)) (e.issue (.csrRead csr kind)) := request_of_noTrap h

theorem csrRead_stops (csr : BitVec 12) (kind : AccessKind) (h : e.reply 0 = .envTrap n) :
    (csrRead csr kind e).Stops e n [.csrRead csr kind] := request_stops h

theorem csrWrite_stops (csr : BitVec 12) (v : Word) (kind : AccessKind) (h : e.reply 0 = .envTrap n) :
    (csrWrite csr v kind e).Stops e n [.csrWrite csr v kind] := request_stops h

/-- The requests of a delegated CSR access that reads or writes, with the value `v` written (R351, R352). -/
def csrRequests (csr : BitVec 12) (reads writes : Bool) (v : Word) : List Request :=
  let kind := if reads && writes then AccessKind.readWrite else if reads then .readOnly else .writeOnly
  (if reads then [.csrRead csr kind] else []) ++ (if writes then [.csrWrite csr v kind] else [])

/-- A delegated CSR access is stopped at its read or, past an answered read, at its write (R352). -/
theorem delegatedCsrOp_stops {csr : BitVec 12} {reads writes : Bool} {f : Word → Word} {rd : XReg} {v : Word}
    (hn : e.noTrapIn k) (hr : e.reply k = .envTrap n)
    (hf : f ((e.reply 0).wordOr (Store.read e.csrs csr.toNat)) = v) (hf0 : reads = false → f 0#32 = v)
    (hk : k < (csrRequests csr reads writes v).length) :
    (delegatedCsrOp csr reads writes f rd e).Stops e n ((csrRequests csr reads writes v).take (k + 1)) := by
  unfold csrRequests at hk ⊢
  rw [← accessKind_eq] at hk ⊢
  cases reads with
  | false =>
    cases writes with
    | false => simp at hk
    | true =>
      obtain rfl : k = 0 := by simpa using hk
      obtain rfl := hf0 rfl
      show ((csrWrite csr (f 0#32) .writeOnly e).andThen _).Stops e n _
      exact (csrWrite_stops csr _ _ hr).andThen
  | true =>
    match k with
    | 0 => exact (csrRead_stops csr _ hr).andThen
    | k + 1 =>
      cases writes with
      | false => simp at hk
      | true =>
        obtain rfl : k = 0 := by simpa using hk
        subst hf
        have hw := csrWrite_stops csr (f ((e.reply 0).wordOr (Store.read e.csrs csr.toNat))) .readWrite
          ((Env.reply_issue e (.csrRead csr .readWrite) 0).trans hr)
        exact Attempt.Stops.after (l := [.csrRead csr .readWrite]) (csrRead_of_noTrap hn _ _) rfl hw.andThen

section
variable {out : Host.Outcome State Fault Refusal} {len : Nat} {sz : Size} {imm a : Word}
  (hn : s.env.noTrapIn k) (hr : s.env.reply k = .envTrap n)
include hr

theorem stopsAt_first {q : Request} {act : Attempt Writes} (ho : out = finish len act s)
    (h : s.env.reply 0 = .envTrap n → act.Stops s.env n [q]) : StopsAt s k n out [q] := by
  intro hk
  obtain rfl : k = 0 := by simpa using hk
  exact finish_stops ho (h hr)

/-- An integer load (R215 to R219). -/
theorem loadX_stops {ext : BitVec 128 → Word} {rd rs1 : XReg} (ho : out = loadX len sz ext rd rs1 imm s)
    (ha : effAddr s.cpu rs1 imm = a) (hsz : sz.bytes ≤ 4) (hal : a.toNat % sz.alignment = 0) :
    StopsAt s k n out [.readWord (wordAddr a)] := by
  subst ha
  exact stopsAt_first hr ho fun h => (memRead_narrow_stops hsz ((aligned_iff _ _).2 hal) h).andThen

/-- An integer store (R220 to R222). -/
theorem storeX_stops {rs2 rs1 : XReg} (ho : out = storeX len sz rs2 rs1 imm s) (ha : effAddr s.cpu rs1 imm = a)
    (hsz : sz.bytes ≤ 4) (hal : a.toNat % sz.alignment = 0) :
    StopsAt s k n out
      [.writeWord (wordAddr a) ((s.cpu.readX rs2 &&& BitVec.ofNat 32 (2 ^ (8 * sz.bytes) - 1)) <<< (8 * (a.toNat % 4)))
        (BitVec.ofNat 4 (2 ^ sz.bytes - 1) <<< (a.toNat % 4))] := by
  subst ha
  rw [← storeData_narrow, ← laneOf_eq]
  exact stopsAt_first hr ho fun h => (memWrite_narrow_stops hsz ((aligned_iff _ _).2 hal) _ h).andThen

/-- A load of a word, whose address is the word's own. -/
theorem loadX_word_stops {ext : BitVec 128 → Word} {rd rs1 : XReg} (ho : out = loadX len .word ext rd rs1 imm s)
    (ha : effAddr s.cpu rs1 imm = a) (hal : a.toNat % 4 = 0) : StopsAt s k n out [.readWord a] := by
  subst ha
  exact stopsAt_first hr ho fun h => (memRead_word_stops hal h).andThen

/-- A store of a word. -/
theorem storeX_word_stops {rs2 rs1 : XReg} (ho : out = storeX len .word rs2 rs1 imm s)
    (ha : effAddr s.cpu rs1 imm = a) (hal : a.toNat % 4 = 0) :
    StopsAt s k n out [.writeWord a (s.cpu.readX rs2) 0b1111#4] := by
  subst ha
  have hv : ((s.cpu.readX rs2).setWidth 128).setWidth 32 = s.cpu.readX rs2 := by simp
  rw [← hv]
  exact stopsAt_first hr ho fun h => (memWrite_word_stops hal _ h).andThen

theorem lrW_stops (aq rl : BitVec 1) {rd rs1 : XReg} (hal : (s.cpu.readX rs1).toNat % 4 = 0) :
    StopsAt s k n (execLrW aq rl rd rs1 s) [.loadReserved (s.cpu.readX rs1)] := by
  refine stopsAt_first hr rfl fun h => ?_
  rw [if_pos ((aligned_iff _ _).2 hal)]
  exact (request_stops h).andThen

theorem scW_stops (aq rl : BitVec 1) {rd rs1 rs2 : XReg} (hal : (s.cpu.readX rs1).toNat % 4 = 0) :
    StopsAt s k n (execScW aq rl rd rs1 rs2 s) [.storeReserved (s.cpu.readX rs1) (s.cpu.readX rs2)] := by
  refine stopsAt_first hr rfl fun h => ?_
  rw [if_pos ((aligned_iff _ _).2 hal)]
  exact (request_stops h).andThen

include hn

/-- An FP load: its words in ascending order (R432). -/
theorem loadF_stops {fmt : Fmt} {rd : FReg} {rs1 : XReg} (ho : out = loadF len fmt rd rs1 imm s)
    (ha : effAddr s.cpu rs1 imm = a) (hal : a.toNat % 4 = 0) :
    StopsAt s k n out ((List.range (fmt.width / 32)).map fun j => .readWord (a + BitVec.ofNat 32 (4 * j))) := by
  subst ha
  exact fun hk => finish_stops ho (memRead_fmt_stops hal hn hr (by simpa using hk)).andThen

/-- An FP store: the raw low bits, word by word in ascending order (R432). -/
theorem storeF_stops {fmt : Fmt} {rs2 : FReg} {rs1 : XReg} (ho : out = storeF len fmt rs2 rs1 imm s)
    (ha : effAddr s.cpu rs1 imm = a) (hal : a.toNat % 4 = 0) :
    StopsAt s k n out ((List.range (fmt.width / 32)).map fun j =>
      .writeWord (a + BitVec.ofNat 32 (4 * j)) ((s.cpu.readF rs2).extractLsb' (32 * j) 32) 0b1111#4) := by
  subst ha
  intro hk
  refine finish_stops ho ?_
  have h := memWrite_fmt_stops hal hn hr ((readRaw s.cpu fmt rs2).setWidth 128) (by simpa using hk)
  rw [List.map_congr_left fun j hj => by rw [readRaw_word s.cpu rs2 (List.mem_range.1 hj)]] at h
  exact h.andThen

/-- The AMO sequence: its read, then its write (R325). -/
theorem amo_stops {op : Word → Word → Word} {rd rs1 rs2 : XReg} {new : Word} (ho : out = amo op rd rs1 rs2 s)
    (hnew : op (s.env.wordAt 0 (s.cpu.readX rs1)) (s.cpu.readX rs2) = new) (hal : (s.cpu.readX rs1).toNat % 4 = 0) :
    StopsAt s k n out [.readWord (s.cpu.readX rs1), .writeWord (s.cpu.readX rs1) new 0b1111#4] := by
  subst hnew
  intro hk
  refine finish_stops ho ?_
  rw [if_pos ((aligned_iff _ _).2 hal)]
  match k, hk with
  | 0, _ => exact (readWord_stops _ hr).andThen
  | 1, _ =>
    exact Attempt.Stops.after (l := [.readWord _]) (readWord_of_noTrap hn _) rfl
      (writeWord_stops _ _ _ (by rw [Env.reply_issue]; exact hr)).andThen

/-- A CSR instruction on a delegated CSR (R352). -/
theorem csrOp_stops {inst : Word} {csr : BitVec 12} {reads writes reads' writes' : Bool} {f : Word → Word} {rd : XReg}
    {v : Word} (ho : out = csrOp inst csr reads' writes' f rd s) (hcsr : csr ∉ [0x001#12, 0x002#12, 0x003#12])
    (hrd : reads' = reads) (hwr : writes' = writes)
    (hf : f ((s.env.reply 0).wordOr (Store.read s.env.csrs csr.toNat)) = v) (hf0 : reads = false → f 0#32 = v) :
    StopsAt s k n out (csrRequests csr reads writes v) := by
  subst hrd hwr
  refine fun hk => finish_stops ho ?_
  rw [fpCsrOf_eq_none hcsr]
  exact delegatedCsrOp_stops hn hr hf hf0 hk

end

/-- Settles O54: in any step by `step_outcome_env` and `step_refused`; the fetches by `frontEnd_stops`; and each
instruction by the lemma of its shape. -/
theorem envTrapsAreForwarded : Obligations.EnvTrapsAreForwarded := by
  refine ⟨fun s t h => ⟨fun n => step_outcome_env h, fun k q n => step_refused h⟩, ?_, ?_⟩
  · intro s n b pc w parcel h0 h1
    have ha := pcAligned_of_even h0 h1
    refine ⟨fun hn hr => ?_, fun hn hr hp => ?_⟩
    · exact step_stops (frontEnd_stops ha hn (fetchBits_stops_first pc (by rw [Env.reply_issue]; exact hr)))
    · have hw : (b.env.issue (.charge .fetch)).wordAt 0 (wordAddr pc) = w := by
        rw [Env.wordAt, Env.reply_issue]; rfl
      refine step_stops (frontEnd_stops ha (Env.noTrapIn_mono hn (by omega))
        (fetchBits_stops_second (Env.noTrapIn_issue hn _) (by rw [Env.reply_issue]; exact hr) ?_))
      rw [hw]
      exact hp
  · intro s rd rs1 rs2 f imm aq rl d r imm5 imm6 csr uimm k n a b v c sp lane old reads writes amo stops hn hr
    refine ⟨?_, ?_, ?_, ?_, ?_, ?_⟩
    · -- Integer loads (R215 to R219).
      intro p hp
      simp only [List.mem_cons, List.not_mem_nil, or_false] at hp
      rcases hp with rfl | rfl | rfl | rfl | rfl | rfl | rfl <;> intro hal
      · exact loadX_stops hr rfl rfl (by decide) hal
      · exact loadX_stops hr rfl rfl (by decide) hal
      · exact loadX_stops hr rfl rfl (by decide) hal
      · exact loadX_stops hr rfl rfl (by decide) hal
      · exact loadX_word_stops hr rfl rfl hal
      · exact loadX_word_stops hr rfl (effAddr_creg _ _ 2 _) hal
      · exact loadX_word_stops hr rfl (effAddr_sp _ 2 _) hal
    · -- Integer stores (R220 to R222).
      intro p hp
      simp only [List.mem_cons, List.not_mem_nil, or_false] at hp
      rcases hp with rfl | rfl | rfl | rfl | rfl <;> intro hal
      · exact storeX_stops (sz := .byte) hr rfl rfl (by decide) hal
      · exact storeX_stops (sz := .half) hr rfl rfl (by decide) hal
      · exact storeX_word_stops hr rfl rfl hal
      · exact creg_eq_cfield d ▸ storeX_word_stops hr rfl (effAddr_creg _ _ 2 _) hal
      · exact storeX_word_stops hr rfl (effAddr_sp _ 2 _) hal
    · -- FP loads (R432).
      intro p hp
      simp only [List.mem_cons, List.not_mem_nil, or_false] at hp
      rcases hp with rfl | rfl | rfl | rfl | rfl | rfl | rfl <;> intro hal
      · exact loadF_stops (fmt := .s) hn hr rfl rfl hal
      · exact loadF_stops (fmt := .d) hn hr rfl rfl hal
      · exact loadF_stops (fmt := .q) hn hr rfl rfl hal
      · exact loadF_stops (fmt := .s) hn hr rfl (effAddr_creg _ _ 2 _) hal
      · exact loadF_stops (fmt := .d) hn hr rfl (effAddr_creg _ _ 3 _) hal
      · exact loadF_stops (fmt := .s) hn hr rfl (effAddr_sp _ 2 _) hal
      · exact loadF_stops (fmt := .d) hn hr rfl (effAddr_sp _ 3 _) hal
    · -- FP stores (R432).
      intro p hp
      simp only [List.mem_cons, List.not_mem_nil, or_false] at hp
      rcases hp with rfl | rfl | rfl | rfl | rfl | rfl | rfl <;> intro hal
      · exact storeF_stops (fmt := .s) hn hr rfl rfl hal
      · exact storeF_stops (fmt := .d) hn hr rfl rfl hal
      · exact storeF_stops (fmt := .q) hn hr rfl rfl hal
      · exact creg_eq_cfield d ▸ storeF_stops (fmt := .s) hn hr rfl (effAddr_creg _ _ 2 _) hal
      · exact creg_eq_cfield d ▸ storeF_stops (fmt := .d) hn hr rfl (effAddr_creg _ _ 3 _) hal
      · exact storeF_stops (fmt := .s) hn hr rfl (effAddr_sp _ 2 _) hal
      · exact storeF_stops (fmt := .d) hn hr rfl (effAddr_sp _ 3 _) hal
    · -- LR.W, SC.W and the AMOs (R323 to R334).
      intro p hp
      simp only [List.mem_cons, List.not_mem_nil, or_false] at hp
      rcases hp with rfl | rfl | rfl | rfl | rfl | rfl | rfl | rfl | rfl | rfl | rfl <;> intro hal
      · exact lrW_stops hr aq rl hal
      · exact scW_stops hr aq rl hal
      · exact amo_stops (op := fun _ b => b) hn hr rfl rfl hal
      · exact amo_stops (op := fun a b => a + b) hn hr rfl rfl hal
      · exact amo_stops (op := fun a b => a ^^^ b) hn hr rfl rfl hal
      · exact amo_stops (op := fun a b => a &&& b) hn hr rfl rfl hal
      · exact amo_stops (op := fun a b => a ||| b) hn hr rfl rfl hal
      · exact amo_stops (op := fun a b => if a.slt b then a else b) hn hr rfl (ite_slt _ _ _ _) hal
      · exact amo_stops (op := fun a b => if b.slt a then a else b) hn hr rfl (ite_slt _ _ _ _) hal
      · exact amo_stops (op := fun a b => if a.ult b then a else b) hn hr rfl (ite_ult _ _ _ _) hal
      · exact amo_stops (op := fun a b => if b.ult a then a else b) hn hr rfl (ite_ult _ _ _ _) hal
    · -- Delegated CSR accesses (R352, R357 to R362).
      intro hcsr was u p hp
      simp only [List.mem_cons, List.not_mem_nil, or_false] at hp
      rcases hp with rfl | rfl | rfl | rfl | rfl | rfl
      · exact csrOp_stops hn hr rfl hcsr (bne_zero rd) rfl rfl fun _ => rfl
      · exact csrOp_stops hn hr rfl hcsr rfl (bne_zero rs1) rfl fun h => by cases h
      · exact csrOp_stops hn hr rfl hcsr rfl (bne_zero rs1) rfl fun h => by cases h
      · exact csrOp_stops hn hr rfl hcsr (bne_zero rd) rfl rfl fun _ => rfl
      · exact csrOp_stops hn hr rfl hcsr rfl (bne_zero uimm) rfl fun h => by cases h
      · exact csrOp_stops hn hr rfl hcsr rfl (bne_zero uimm) rfl fun h => by cases h

end Sys2Proof.Machine
end

section
/-! SUPPORT. The invariants that every step keeps, said once for a turn of the embedder, for the requests of a step and
for its commit: the well-formed state, and the even pc (R46, R49, R58, R59, R131, R802). -/
namespace Sys2Proof.Machine

variable {s t : State} {e e' : Env} {P : Request → Bool} {o : Option Nat}

/-! ### The embedder's turn -/

/-- A turn is the actions at the head of the schedule, if any. -/
theorem embedderTurn_eq (s : State) :
    embedderTurn s = applyActions { s with schedule := s.schedule.tail } (s.schedule.head?.getD []) := by
  unfold embedderTurn
  split <;> rename_i h
  · cases s; cases h; rfl
  · rw [h]; rfl

/-- What every action of a list keeps, the list keeps. -/
theorem applyActions_keeps {p : State → Prop} {acts : List EmbedderAction}
    (h : ∀ act ∈ acts, ∀ u, p u → p (act.apply u)) (hs : p s) : p (applyActions s acts) := by
  induction acts generalizing s with
  | nil => exact hs
  | cons act acts ih => exact ih (fun a ha => h a (by simp [ha])) (h act (by simp) s hs)

/-- What every action of a turn keeps, the turn keeps; its schedule is the rest. -/
theorem embedderTurn_keeps {p : State → Prop}
    (h : ∀ acts ∈ s.schedule.head?, ∀ act ∈ acts, ∀ u, p u → p (act.apply u))
    (hs : p { s with schedule := s.schedule.tail }) : p (embedderTurn s) := by
  rw [embedderTurn_eq]
  refine applyActions_keeps (fun act hact => ?_) hs
  cases hh : s.schedule.head? with
  | none => rw [hh] at hact; cases hact
  | some acts => exact h acts hh act (by rwa [hh] at hact)

/-- An action that is no restore leaves the core as it is. -/
theorem EmbedderAction.apply_cpu {act : EmbedderAction} (h : ∀ image, act ≠ .restore image) (s : State) :
    (act.apply s).cpu = s.cpu := by
  cases act with
  | restore image => exact absurd rfl (h image)
  | setGates | setSqrtModes | setTrapAnswer | writeMemory | dropReservation | setCsr | setReplies => rfl

/-! ### The two ends of a step -/

/-- A step commits what the front end's instruction may write, or delivers one trap; either way in an environment that
its requests reached (R708, R709). -/
theorem step_commits_or_delivers (h : step s = .next t) :
    (∃ i w e, t = commit (Instr.len i) w { beginStep s with env := e } ∧
      Env.Reach Request.beforeTrap (beginStep s).env none e ∧ w.Ok (beginStep s) (isCsr i)) ∨
    ∃ tr e, t = deliver tr { beginStep s with env := e } ∧
      Env.Reach Request.beforeTrap (beginStep s).env tr.refusal e := by
  obtain ⟨len, a, hs, hreach, hok⟩ := step_runs s
  rw [hs] at h
  cases a with
  | ok w e =>
    obtain ⟨i, -, -, rfl, hw⟩ := hok w e rfl
    cases h
    exact .inl ⟨i, w, e, rfl, hreach, hw⟩
  | trap tr e =>
    cases h
    exact .inr ⟨tr, e, rfl, hreach⟩

/-! ### The well-formed state -/

/-- The environment's part of `State.Inv`. -/
structure Env.Wf (e : Env) : Prop where
  mem : Memory.wf e.mem
  csrs : CsrFile.wf e.csrs
  reservation : e.reservationAligned

theorem State.inv_iff : s.Inv ↔ s.env.Wf ∧ s.cpu.wf s.cfg.flen :=
  ⟨fun ⟨hmem, hcsrs, hres, hregs⟩ => ⟨⟨hmem, hcsrs, hres⟩, hregs⟩,
    fun ⟨⟨hmem, hcsrs, hres⟩, hregs⟩ => ⟨hmem, hcsrs, hres, hregs⟩⟩

theorem Env.Wf.issue (h : e.Wf) (q : Request) : (e.issue q).Wf := ⟨h.mem, h.csrs, h.reservation⟩

/-- A write leaves the reservation that stood, or none (R58). -/
theorem Env.Wf.store (h : e.Wf) (a v : Word) (be : BitVec 4) : (e.store a v be).Wf where
  mem := by rw [Env.store_mem]; exact Memory.wf_writeWord h.mem a v be
  csrs := by rw [Env.store_csrs]; exact h.csrs
  reservation r hr := by
    rw [Env.store_reservation] at hr
    split at hr
    · cases hr
    · exact h.reservation r hr

theorem Env.Wf.reserve (h : e.Wf) {a : Word} (ha : wordAddr a = a) : Env.Wf { e with reservation := some a } :=
  ⟨h.mem, h.csrs, fun r hr => by cases hr; exact ha⟩

theorem Env.Wf.release (h : e.Wf) : Env.Wf { e with reservation := none } := ⟨h.mem, h.csrs, fun _ hr => by cases hr⟩

theorem Env.Wf.setCsr (h : e.Wf) (n : BitVec 12) (v : Word) : (e.setCsr n v).Wf :=
  ⟨h.mem, Store.wf_write h.csrs n.isLt v, h.reservation⟩

/-- No request, and nothing the environment does to answer one, breaks a canonical form. -/
theorem Env.Reach.wf (h : Env.Reach P e o e') (he : e.Wf) : e'.Wf := by
  induction h with
  | refl => exact he
  | issue _ q _ _ ih => exact ih.issue q
  | refused _ q _ _ _ _ ih => exact ih.issue q
  | store _ a v be ih => exact ih.store a v be
  | reserve _ a ha ih => exact ih.reserve ha
  | release _ ih => exact ih.release
  | setCsr _ n v ih => exact ih.setCsr n v

/-- Every action of the embedder keeps the state well formed; a restore by `wf_restoreImage` (R802). -/
theorem EmbedderAction.inv_apply (act : EmbedderAction) (h : s.Inv) : (act.apply s).Inv := by
  obtain ⟨henv, hcpu⟩ := State.inv_iff.1 h
  cases act with
  | restore image =>
    refine State.inv_iff.2 ?_
    rw [EmbedderAction.apply, restoreImage_env, restoreImage_cfg]
    exact ⟨henv, wf_restoreImage hcpu image⟩
  | setGates | setSqrtModes | setTrapAnswer | setReplies => exact ⟨h.mem, h.csrs, h.reservation, h.regs⟩
  | writeMemory a v be => exact State.inv_iff.2 ⟨henv.store _ v be, hcpu⟩
  | dropReservation => exact State.inv_iff.2 ⟨henv.release, hcpu⟩
  | setCsr n v => exact State.inv_iff.2 ⟨henv.setCsr n v, hcpu⟩

theorem inv_embedderTurn (h : s.Inv) : (embedderTurn s).Inv :=
  embedderTurn_keeps (fun _ _ act _ _ => act.inv_apply) ⟨h.mem, h.csrs, h.reservation, h.regs⟩

theorem inv_beginStep (h : s.Inv) : (beginStep s).Inv := by
  obtain ⟨hmem, hcsrs, hres, hregs⟩ := inv_embedderTurn h
  exact ⟨hmem, hcsrs, hres, hregs⟩

/-- Settles O55: the embedder's turn keeps the invariant action by action, the requests of the step keep the
environment's part of it, and a commit writes f values of FLEN bits only. -/
theorem stepKeepsInvariant : Obligations.StepKeepsInvariant := by
  intro s t hs ht
  obtain ⟨henv, hcpu⟩ := State.inv_iff.1 (inv_beginStep hs)
  rcases step_commits_or_delivers ht with ⟨i, w, e, rfl, hreach, hw⟩ | ⟨tr, e, rfl, hreach⟩
  · exact State.inv_iff.2 ⟨hreach.wf henv, Cpu.wf_apply hcpu _ hw.f⟩
  · exact State.inv_iff.2 ⟨(hreach.wf henv).issue _, hcpu⟩

/-! ### The even pc -/

theorem len_even (i : Instr) : i.len % 2 = 0 := by
  rw [Instr.len]
  cases i.encoded <;> simp [Encoded.len]

/-- The next instruction's address is as even as this one's (R131). -/
theorem next_pc_even {pc : Word} (h : pc.toNat % 2 = 0) (i : Instr) : (pc + BitVec.ofNat 32 i.len).toNat % 2 = 0 := by
  refine even_add ?_ h
  have := len_even i
  rw [BitVec.toNat_ofNat]
  omega

/-- Settles O57: a commit's pc is an even target or the next instruction's address, and a trap's is the one before; in a
turn of the embedder only a restore touches the core. -/
theorem pcStaysEven : Obligations.PcStaysEven := by
  refine ⟨fun s t hpc ht => ?_, fun s h => ?_⟩
  · rcases step_commits_or_delivers ht with ⟨i, w, e, rfl, -, hw⟩ | ⟨tr, e, rfl, -⟩
    · rw [commit_cpu, Cpu.apply_pc]
      cases hp : w.pc with
      | none => exact next_pc_even hpc i
      | some p => exact hw.pc p hp hpc
    · exact hpc
  · exact embedderTurn_keeps (p := fun u => u.cpu = s.cpu)
      (fun acts ha act hact u hu => (EmbedderAction.apply_cpu (h acts ha act hact) u).trans hu) rfl

/-! ### A restore -/

/-- A turn that is one restore. -/
theorem beginStep_restore {image : CpuImage} {rest : List (List EmbedderAction)}
    (h : s.schedule = [.restore image] :: rest) :
    beginStep s = { s with
      cpu := if image.flen = s.cfg.flen then image.toCpu else s.cpu
      env := { s.env with requests := [] }
      schedule := rest } := by
  unfold beginStep
  rw [embedderTurn_eq, h]
  simp only [List.head?_cons, Option.getD_some, List.tail_cons, applyActions, EmbedderAction.apply, restoreImage_eq]

/-- A slot that holds FLEN bits is what its low FLEN bits extend to (R49). -/
theorem setWidth_setWidth_of_wf {flen : Flen} {v : BitVec 128} (h : v &&& ~~~(ones flen.bits) = 0#128) :
    (v.setWidth flen.bits).setWidth 128 = v := by
  apply BitVec.eq_of_getLsbD_eq
  intro k hk
  have hbit := congrArg (·.getLsbD k) h
  simp only [BitVec.getLsbD_and, BitVec.getLsbD_not, getLsbD_ones, hk, BitVec.getLsbD_zero] at hbit
  by_cases hf : k < flen.bits
  · simp [hk, hf]
  · have hv : v.getLsbD k = false := by simpa [hk, hf] using hbit
    rw [hv, BitVec.getLsbD_setWidth, BitVec.getLsbD_of_ge _ k (Nat.le_of_not_lt hf), Bool.and_false]

/-- What is saved of a core that holds FLEN bits is restored to that core (R59). -/
theorem toCpu_image (h : t.cpu.wf t.cfg.flen) : t.image.toCpu = t.cpu := by
  have hf : t.image.toCpu.f = t.cpu.f := Vector.ext fun i hi => by
    calc t.image.toCpu.f[i]
      _ = ((t.cpu.f[i]).setWidth t.cfg.flen.bits).setWidth 128 := by simp [CpuImage.toCpu]
      _ = t.cpu.f[i] := setWidth_setWidth_of_wf (h ⟨i, hi⟩)
  calc t.image.toCpu
    _ = { t.cpu with f := t.image.toCpu.f } := rfl
    _ = t.cpu := by rw [hf]

/-- Settles O60: the turn is the one restore, and an image of the core's FLEN gives back what it was taken from. -/
theorem embedderRestores : Obligations.EmbedderRestores := by
  intro s image rest hsched b
  have hb : b = _ := beginStep_restore hsched
  refine ⟨fun hflen => ?_, fun t himage hflen hwf => ?_, fun hflen => ?_, ?_, ?_, ?_⟩
  · rw [hb, if_pos hflen]
    exact ⟨rfl, rfl, rfl, image.toCpu_f⟩
  · subst himage
    rw [hb]
    exact (if_pos hflen).trans (toCpu_image hwf)
  · rw [hb, if_neg hflen]
  all_goals rw [hb]

end Sys2Proof.Machine
end

section
/-! SUPPORT. The CSR instructions on the three CSRs of the core (R352 to R362). -/
namespace Sys2Proof.Machine

/-! ### The views of FCSR, as masks and shifts (R353 to R355) -/

/-- The bits of the mask of the flags in FCSR (R52). -/
theorem getLsbD_flagMask {k : Nat} (hk : k < 8) : (0x1F#8).getLsbD k = decide (k < 5) := by
  revert k; decide

/-- The bits of the mask of frm in FCSR (R52). -/
theorem getLsbD_frmMask {k : Nat} (hk : k < 8) : (0xE0#8).getLsbD k = decide (5 ≤ k) := by
  revert k; decide

variable (c : BitVec 8) (v : Word)

theorem fpCsrRead_fflags : fpCsrRead c .fflags = (c &&& 0x1F#8).setWidth 32 := by
  apply BitVec.eq_of_getLsbD_eq
  intro k hk
  simp only [fpCsrRead, fflagsOf, BitVec.getLsbD_setWidth, BitVec.getLsbD_extractLsb', BitVec.getLsbD_and]
  by_cases h : k < 8
  · simp [getLsbD_flagMask h, Bool.and_comm]
  · simp [BitVec.getLsbD_of_ge c k (by omega)]

theorem fpCsrRead_frm : fpCsrRead c .frm = (c >>> 5).setWidth 32 := by
  apply BitVec.eq_of_getLsbD_eq
  intro k hk
  simp only [fpCsrRead, frmOf, BitVec.getLsbD_setWidth, BitVec.getLsbD_extractLsb', BitVec.getLsbD_ushiftRight]
  by_cases h : k < 3
  · simp [h]
  · simp [h, BitVec.getLsbD_of_ge c (5 + k) (by omega)]

theorem fpCsrRead_fcsr : fpCsrRead c .fcsr = c.setWidth 32 := rfl

theorem fpCsrWrite_fflags : fpCsrWrite c v .fflags = c &&& 0xE0#8 ||| v.setWidth 8 &&& 0x1F#8 := by
  apply BitVec.eq_of_getLsbD_eq
  intro k hk
  simp only [fpCsrWrite, frmOf, BitVec.getLsbD_cast, BitVec.getLsbD_append, BitVec.getLsbD_extractLsb',
    BitVec.getLsbD_or, BitVec.getLsbD_and, getLsbD_frmMask hk, getLsbD_flagMask hk, BitVec.getLsbD_setWidth, hk]
  by_cases h : k < 5
  · simp [h, not_le.2 h]
  · have : k - 5 < 3 ∧ 5 + (k - 5) = k := by omega
    simp [h, not_lt.1 h, this]

theorem fpCsrWrite_frm : fpCsrWrite c v .frm = v.setWidth 8 <<< 5 ||| c &&& 0x1F#8 := by
  apply BitVec.eq_of_getLsbD_eq
  intro k hk
  simp only [fpCsrWrite, fflagsOf, BitVec.getLsbD_cast, BitVec.getLsbD_append, BitVec.getLsbD_extractLsb',
    BitVec.getLsbD_or, BitVec.getLsbD_and, BitVec.getLsbD_shiftLeft, getLsbD_flagMask hk, BitVec.getLsbD_setWidth, hk]
  by_cases h : k < 5
  · simp [h]
  · have : k - 5 < 3 ∧ k - 5 < 8 := by omega
    simp [h, this]

theorem fpCsrWrite_fcsr : fpCsrWrite c v .fcsr = v.setWidth 8 := by
  apply BitVec.eq_of_getLsbD_eq
  intro k hk
  simp [fpCsrWrite, hk]

/-- A CSR written with what it reads is FCSR as it was. -/
theorem fpCsrWrite_fpCsrRead (csr : FpCsr) : fpCsrWrite c (fpCsrRead c csr) csr = c := by
  apply BitVec.eq_of_getLsbD_eq
  intro k hk
  cases csr with
  | fflags =>
    simp only [fpCsrWrite_fflags, fpCsrRead_fflags, BitVec.getLsbD_or, BitVec.getLsbD_and, BitVec.getLsbD_setWidth,
      getLsbD_frmMask hk, getLsbD_flagMask hk]
    by_cases h : k < 5
    · simp [hk, h, show k < 32 by omega]
    · simp [h, not_lt.1 h]
  | frm =>
    simp only [fpCsrWrite_frm, fpCsrRead_frm, BitVec.getLsbD_or, BitVec.getLsbD_and, BitVec.getLsbD_setWidth,
      BitVec.getLsbD_shiftLeft, BitVec.getLsbD_ushiftRight, getLsbD_flagMask hk]
    by_cases h : k < 5
    · simp [h]
    · have : 5 + (k - 5) = k ∧ k - 5 < 8 ∧ k - 5 < 32 := by omega
      simp [hk, h, this]
  | fcsr => simp [fpCsrWrite_fcsr, fpCsrRead_fcsr]

/-! ### The instructions -/

variable {s : State} {csr : FpCsr} {n : BitVec 12}

theorem fpCsrsExist_of_fpu (hflen : s.cfg.flen ≠ .none) (hf : s.env.gates.f = true) : s.fpCsrsExist = true := by
  simp [State.fpCsrsExist, hflen, hf]

/-- With the FPU the operation on an FP CSR only commits its writes (R352). -/
theorem csrOp_eq_retire (hs : s.fpCsrsExist = true) (hn : fpCsrOf n = some csr) (inst : Word) (reads writes : Bool)
    (f : Word → Word) (rd : XReg) : csrOp inst n reads writes f rd s =
      let old := fpCsrRead s.cpu.fcsr csr
      retire 4 { x := if reads then some (rd, old) else none
                 fcsr := if writes then some (fpCsrWrite s.cpu.fcsr (f old) csr) else none } s := by
  rw [csrOp, hn]
  simp only [fpCsrOp, hs, if_true, retire]

/-- An access with no read has rd = x0, and one with no write would write what it read: so each does as one with both
(R352, R357 to R362). -/
theorem csrOp_fp_next {out : Host.Outcome State Fault Refusal} {inst old : Word} {reads writes : Bool} {f : Word → Word}
    {rd : XReg} (ho : out = csrOp inst n reads writes f rd s) (hs : s.fpCsrsExist = true) (hn : fpCsrOf n = some csr)
    (hold : fpCsrRead s.cpu.fcsr csr = old) (hreads : reads = false → rd = 0#5)
    (hwrites : writes = false → f old = old) :
    ∃ t, out = .next t ∧ Retires s t (s.cpu.pc + 4#32) (some (rd, old)) none (fpCsrWrite s.cpu.fcsr (f old) csr) ∧
      s.env.Asked t.env [] := by
  obtain ⟨t, ht, hret, hask⟩ := retire_next (ho.trans (csrOp_eq_retire hs hn inst reads writes f rd))
  rw [hold] at hret
  have hfcsr : accrue ((if writes then some (fpCsrWrite s.cpu.fcsr (f old) csr) else none).getD s.cpu.fcsr) noFlags =
      fpCsrWrite s.cpu.fcsr (f old) csr := by
    cases writes with
    | true => simp
    | false =>
      rw [hwrites rfl, ← hold, fpCsrWrite_fpCsrRead]
      simp
  rw [hfcsr] at hret
  refine ⟨t, ht, ?_, hask⟩
  cases reads with
  | true => exact hret
  | false =>
    obtain rfl := hreads rfl
    exact hret.x_zero

theorem eq_zero_of_bne {r : BitVec 5} (h : (r != 0#5) = false) : r = 0#5 := by simpa using h

/-- The six instructions on one FP CSR (R357 to R362). -/
theorem csrInstrs_fp (hs : s.fpCsrsExist = true) (hn : fpCsrOf n = some csr) (rd rs1 : XReg) (uimm : BitVec 5) :
    let a := s.cpu.readX rs1
    let u := uimm.setWidth 32
    let old := fpCsrRead s.cpu.fcsr csr
    ∀ q ∈ ([(.csrrw rd n rs1, a), (.csrrs rd n rs1, old ||| a), (.csrrc rd n rs1, old &&& ~~~a), (.csrrwi rd n uimm, u),
        (.csrrsi rd n uimm, old ||| u), (.csrrci rd n uimm, old &&& ~~~u)] : List (Instr × Word)),
      ∃ t, exec q.1 s = .next t ∧ Retires s t (s.cpu.pc + 4#32) (some (rd, old)) none (fpCsrWrite s.cpu.fcsr q.2 csr) ∧
        s.env.Asked t.env [] := by
  intro a u old q hq
  have ha (h : (rs1 != 0#5) = false) : a = 0#32 := by simp [a, eq_zero_of_bne h]
  have hu (h : (uimm != 0#5) = false) : u = 0#32 := by simp [u, eq_zero_of_bne h]
  have or_zero {b : Word} (h : b = 0#32) : old ||| b = old := by rw [h, BitVec.or_zero]
  have and_not_zero {b : Word} (h : b = 0#32) : old &&& ~~~b = old := by rw [h, BitVec.not_zero, BitVec.and_allOnes]
  simp only [List.mem_cons, List.not_mem_nil, or_false] at hq
  rcases hq with rfl | rfl | rfl | rfl | rfl | rfl
  · exact csrOp_fp_next (f := fun _ => a) rfl hs hn rfl eq_zero_of_bne nofun
  · exact csrOp_fp_next (f := fun v => v ||| a) rfl hs hn rfl nofun fun h => or_zero (ha h)
  · exact csrOp_fp_next (f := fun v => v &&& ~~~a) rfl hs hn rfl nofun fun h => and_not_zero (ha h)
  · exact csrOp_fp_next (f := fun _ => u) rfl hs hn rfl eq_zero_of_bne nofun
  · exact csrOp_fp_next (f := fun v => v ||| u) rfl hs hn rfl nofun fun h => or_zero (hu h)
  · exact csrOp_fp_next (f := fun v => v &&& ~~~u) rfl hs hn rfl nofun fun h => and_not_zero (hu h)

/-- Settles O27: the six instructions are one operation (`csrInstrs_fp`), and the three CSRs are masks of FCSR. -/
theorem fpCsrAccess : Obligations.FpCsrAccess := by
  intro s rd rs1 uimm hflen hf c a u p hp old
  have hs := fpCsrsExist_of_fpu hflen hf
  simp only [List.mem_cons, List.not_mem_nil, or_false] at hp
  rcases hp with rfl | rfl | rfl
  · have h := csrInstrs_fp hs (n := 0x001#12) rfl rd rs1 uimm
    simpa only [fpCsrRead_fflags, fpCsrWrite_fflags] using h
  · have h := csrInstrs_fp hs (n := 0x002#12) rfl rd rs1 uimm
    simpa only [fpCsrRead_frm, fpCsrWrite_frm] using h
  · have h := csrInstrs_fp hs (n := 0x003#12) rfl rd rs1 uimm
    simpa only [fpCsrRead_fcsr, fpCsrWrite_fcsr] using h

end Sys2Proof.Machine
end

section
/-! SUPPORT. What each extension may touch: the requests that leave the delegated CSRs alone, and the writes each
instruction may schedule (R54, R56, R57, R201, R416). -/
namespace Sys2Proof.Machine

variable {α β : Type} {s t : State} {e : Env}

/-! ### The delegated CSRs -/

/-- The attempt leaves the delegated CSRs as they are in `e`. -/
def Attempt.KeepsCsrs (e : Env) (a : Attempt α) : Prop := a.env.csrs = e.csrs

theorem Attempt.KeepsCsrs.andThen {a : Attempt α} {k : α → Env → Attempt β} (ha : a.KeepsCsrs e)
    (hk : ∀ v e', (k v e').KeepsCsrs e') : (a.andThen k).KeepsCsrs e := by
  cases a with
  | ok v e' => exact (hk v e').trans ha
  | trap t e' => exact ha

/-- An attempt goes on with the writes it schedules. -/
theorem Attempt.KeepsCsrs.andThen_ok {a : Attempt α} {k : α → Env → β} (ha : a.KeepsCsrs e) :
    (a.andThen fun v e => .ok (k v e) e).KeepsCsrs e :=
  ha.andThen fun _ _ => rfl

theorem request_keepsCsrs {q : Request} {k : Reply → Env → Attempt α} (hk : ∀ r e', (k r e').KeepsCsrs e') :
    (request q k e).KeepsCsrs e := by
  rcases request_cases q k e with ⟨t, -, h⟩ | ⟨-, h⟩
  · rw [h]; rfl
  · rw [h]; exact hk _ _

theorem orIllegal_keepsCsrs (inst : Word) (v : Option α) : (orIllegal inst v e).KeepsCsrs e := by
  cases v <;> rfl

theorem readWord_keepsCsrs (a : Word) : (readWord a e).KeepsCsrs e := request_keepsCsrs fun _ _ => rfl

theorem writeWord_keepsCsrs (a v : Word) (be : BitVec 4) : (writeWord a v be e).KeepsCsrs e :=
  request_keepsCsrs fun _ _ => Env.store_csrs _ _ _ _

theorem loadReserved_keepsCsrs (a : Word) : (loadReserved a e).KeepsCsrs e := request_keepsCsrs fun _ _ => rfl

theorem storeReserved_keepsCsrs (a v : Word) : (storeReserved a v e).KeepsCsrs e :=
  request_keepsCsrs fun r e' => by
    split
    · exact Env.store_csrs e' a v 0b1111#4
    · rfl

theorem sqrtMode_keepsCsrs (fmt : Fmt) : (sqrtMode fmt e).KeepsCsrs e := by
  unfold sqrtMode
  split <;> rfl

theorem readWords_keepsCsrs (n : Nat) (a : Word) : (readWords n a e).KeepsCsrs e := by
  induction n generalizing a e with
  | zero => rfl
  | succ n ih => exact (readWord_keepsCsrs a).andThen fun _ _ => (ih _).andThen_ok

theorem writeWords_keepsCsrs (ws : List Word) (a : Word) : (writeWords ws a e).KeepsCsrs e := by
  induction ws generalizing a e with
  | nil => rfl
  | cons w ws ih => exact (writeWord_keepsCsrs a w _).andThen fun _ _ => ih _

theorem memRead_keepsCsrs (sz : Size) (a : Word) : (memRead sz a e).KeepsCsrs e := by
  unfold memRead
  split
  · cases sz with
    | byte | half | word => exact (readWord_keepsCsrs _).andThen_ok
    | double | quad => exact (readWords_keepsCsrs _ _).andThen_ok
  · rfl

theorem memWrite_keepsCsrs (sz : Size) (a : Word) (v : BitVec 128) : (memWrite sz a v e).KeepsCsrs e := by
  unfold memWrite
  split
  · cases sz with
    | byte | half | word => exact writeWord_keepsCsrs _ _ _
    | double | quad => exact writeWords_keepsCsrs _ _
  · rfl

/-! ### What an extension lets an instruction write -/

/-- The extensions of the floating-point instructions (R136). -/
def isFpExt : Ext → Bool
  | .f | .d | .q | .cf | .cd => true
  | .i | .m | .a | .zicsr | .zifencei | .c => false

/-- Writes allowed to an instruction of the extension: an f register and flags to a floating-point one, a whole FCSR to
Zicsr (R54, R201, R416). -/
structure Writes.Within (x : Ext) (w : Writes) : Prop where
  f : isFpExt x = false → w.f = none
  flags : isFpExt x = false → w.flags = noFlags
  fcsr : x ≠ .zicsr → w.fcsr = none

variable {x : Ext} {w : Writes}

theorem Writes.Within.of_integer (hf : w.f = none) (hflags : w.flags = noFlags) (hfcsr : w.fcsr = none) : w.Within x :=
  ⟨fun _ => hf, fun _ => hflags, fun _ => hfcsr⟩

theorem Writes.Within.of_fp (hx : isFpExt x = true) (hfcsr : w.fcsr = none) : w.Within x :=
  ⟨fun h => by simp [hx] at h, fun h => by simp [hx] at h, fun _ => hfcsr⟩

theorem Writes.Within.of_x (x : Ext) (r : Option (XReg × Word)) : Writes.Within x { x := r } :=
  .of_integer rfl rfl rfl

/-- Whatever the attempt schedules, the extension allows. -/
def Attempt.Schedules (x : Ext) (a : Attempt Writes) : Prop := ∀ w e, a = .ok w e → w.Within x

theorem Attempt.Schedules.ok (hw : w.Within x) : (Attempt.ok w e).Schedules x := fun _ _ h => by cases h; exact hw

/-- What is scheduled is scheduled last. -/
theorem Attempt.Schedules.andThen {a : Attempt α} {k : α → Env → Attempt Writes} (hk : ∀ v e, (k v e).Schedules x) :
    (a.andThen k).Schedules x := fun w e h => by
  obtain ⟨v, e', -, hv⟩ := Attempt.andThen_eq_ok h
  exact hk v e' w e hv

theorem raise_schedules (c : Cause) (info : Word) : (raise c info e).Schedules x := fun _ _ h => by cases h

/-- An execution from `s` that touches only what the extension lets it: the delegated CSRs only in Zicsr, and the
registers of `Writes.Within`. -/
def Confined (s : State) (x : Ext) (out : Host.Outcome State Fault Refusal) : Prop :=
  ∃ len a, out = finish len a s ∧ (x ≠ .zicsr → a.KeepsCsrs s.env) ∧ a.Schedules x

variable {out : Host.Outcome State Fault Refusal} {len : Nat}

theorem confined_retire (ho : out = retire len w s) (hw : w.Within x) : Confined s x out :=
  ⟨len, _, ho, fun _ => rfl, .ok hw⟩

/-- An integer instruction that asks nothing. -/
theorem confined_integer (ho : out = retire len w s) (hf : w.f = none) (hflags : w.flags = noFlags)
    (hfcsr : w.fcsr = none) : Confined s x out :=
  confined_retire ho (.of_integer hf hflags hfcsr)

/-- A floating-point instruction that asks nothing. -/
theorem confined_fp (ho : out = retire len w s) (hx : isFpExt x = true) (hfcsr : w.fcsr = none) : Confined s x out :=
  confined_retire ho (.of_fp hx hfcsr)

theorem confined_raise {c : Cause} {info : Word} (ho : out = finish len (raise c info s.env) s) : Confined s x out :=
  ⟨len, _, ho, fun _ => rfl, raise_schedules _ _⟩

/-- An instruction whose writes follow some requests of its own. -/
theorem confined_after {a : Attempt α} {k : α → Env → Writes}
    (ho : out = finish len (a.andThen fun v e => .ok (k v e) e) s) (ha : a.KeepsCsrs s.env)
    (hk : ∀ v e, (k v e).Within x) : Confined s x out :=
  ⟨len, _, ho, fun _ => ha.andThen_ok, .andThen fun v e => .ok (hk v e)⟩

theorem confined_loadX {sz : Size} {ext : BitVec 128 → Word} {rd rs1 : XReg} {imm : Word}
    (ho : out = loadX len sz ext rd rs1 imm s) : Confined s x out :=
  confined_after ho (memRead_keepsCsrs _ _) fun _ _ => .of_x _ _

theorem confined_loadF {fmt : Fmt} {rd : FReg} {rs1 : XReg} {imm : Word} (ho : out = loadF len fmt rd rs1 imm s)
    (hx : isFpExt x = true) : Confined s x out :=
  confined_after ho (memRead_keepsCsrs _ _) fun _ _ => .of_fp hx rfl

/-- A store schedules no write. -/
theorem confined_store {sz : Size} {a : Word} {v : BitVec 128}
    (ho : out = finish len ((memWrite sz a v s.env).andThen fun _ e => .ok {} e) s) : Confined s x out :=
  confined_after ho (memWrite_keepsCsrs _ _ _) fun _ _ => .of_x _ _

theorem confined_withMode {inst : Word} {rm : Rm} {w : RoundingMode → Writes} (ho : out = withMode inst rm w s)
    (hx : isFpExt x = true) (hw : ∀ m, (w m).fcsr = none) : Confined s x out :=
  confined_after ho (orIllegal_keepsCsrs _ _) fun m _ => .of_fp hx (hw m)

theorem confined_fpSqrt {fmt : Fmt} {inst : Word} {rd rs1 : FReg} {rm : Rm} (ho : out = fpSqrt fmt inst rd rs1 rm s)
    (hx : isFpExt x = true) : Confined s x out :=
  ⟨4, _, ho,
    fun _ => (orIllegal_keepsCsrs _ _).andThen fun _ _ => (sqrtMode_keepsCsrs _).andThen fun _ _ =>
      (orIllegal_keepsCsrs _ _).andThen_ok,
    .andThen fun _ _ => .andThen fun _ _ => .andThen fun _ _ => .ok (.of_fp hx rfl)⟩

/-- An aligned access, or the trap of a misaligned one. -/
theorem confined_aligned {sz : Size} {addr : Word} {cause : Cause} {a : Attempt Writes}
    (ho : out = finish len (if sz.aligned addr then a else raise cause addr s.env) s)
    (ha : a.KeepsCsrs s.env) (hw : a.Schedules x) : Confined s x out := by
  split at ho
  · exact ⟨len, a, ho, fun _ => ha, hw⟩
  · exact confined_raise ho

theorem confined_amo {op : Word → Word → Word} {rd rs1 rs2 : XReg} (ho : out = amo op rd rs1 rs2 s) :
    Confined s x out :=
  confined_aligned ho ((readWord_keepsCsrs _).andThen fun _ _ => (writeWord_keepsCsrs _ _ _).andThen_ok)
    (.andThen fun _ _ => .andThen fun _ _ => .ok (.of_x _ _))

/-- Zicsr alone writes FCSR as a whole, and a delegated CSR. -/
theorem confined_csrOp {inst : Word} {n : BitVec 12} {reads writes : Bool} {f : Word → Word} {rd : XReg}
    (ho : out = csrOp inst n reads writes f rd s) : Confined s .zicsr out := by
  unfold csrOp at ho
  split at ho
  · unfold fpCsrOp at ho
    split at ho
    · exact confined_retire ho ⟨fun _ => rfl, fun _ => rfl, fun h => absurd rfl h⟩
    · exact confined_raise ho
  · exact ⟨4, _, ho, fun h => absurd rfl h, .andThen fun _ _ => .andThen fun _ _ => .ok (.of_x _ _)⟩

/-- Every instruction touches only what its extension lets it. -/
theorem exec_confined (i : Instr) (s : State) : Confined s i.ext (exec i s) := by
  cases i with
  | lui | auipc | jal | jalr | beq | bne | blt | bge | bltu | bgeu | addi | slti | sltiu | xori | ori | andi | slli
  | srli | srai | add | sub | sll | slt | sltu | xor | srl | sra | or | and | mul | mulh | mulhsu | mulhu | div | divu
  | rem | remu | fence | fenceI | cAddi4spn | cNop | cAddi | cLi | cAddi16sp | cLui | cSrli | cSrai
  | cAndi | cSub | cXor | cOr | cAnd | cSlli | cMv | cAdd | cJal | cJ | cJr | cJalr | cBeqz | cBnez =>
    exact confined_integer rfl rfl rfl rfl
  | ecall | ebreak => exact confined_raise (len := 4) rfl
  | cEbreak => exact confined_raise (len := 2) rfl
  | fmvXW | fmvWX | fsgnjS | fsgnjnS | fsgnjxS | fminS | fmaxS | fsgnjD | fsgnjnD | fsgnjxD | fminD | fmaxD | fsgnjQ
  | fsgnjnQ | fsgnjxQ | fminQ | fmaxQ | feqS | fltS | fleS | feqD | fltD | fleD | feqQ | fltQ | fleQ | fclassS
  | fclassD | fclassQ =>
    exact confined_fp rfl rfl rfl
  | fmaddS | fmsubS | fnmsubS | fnmaddS | fmaddD | fmsubD | fnmsubD | fnmaddD | fmaddQ | fmsubQ | fnmsubQ | fnmaddQ
  | faddS | fsubS | fmulS | fdivS | faddD | fsubD | fmulD | fdivD | faddQ | fsubQ | fmulQ | fdivQ | fcvtWS | fcvtWuS
  | fcvtWD | fcvtWuD | fcvtWQ | fcvtWuQ | fcvtSW | fcvtSWu | fcvtDW | fcvtDWu | fcvtQW | fcvtQWu | fcvtSD | fcvtDS
  | fcvtSQ | fcvtQS | fcvtDQ | fcvtQD =>
    exact confined_withMode rfl rfl fun _ => rfl
  | fsqrtS | fsqrtD | fsqrtQ => exact confined_fpSqrt rfl rfl
  | lb | lh | lw | lbu | lhu | cLw | cLwsp => exact confined_loadX rfl
  | flw | fld | flq | cFld | cFlw | cFldsp | cFlwsp => exact confined_loadF rfl rfl
  | sb | sh | sw | cSw | cSwsp | fsw | fsd | fsq | cFsd | cFsw | cFsdsp | cFswsp => exact confined_store rfl
  | csrrw | csrrs | csrrc | csrrwi | csrrsi | csrrci => exact confined_csrOp rfl
  | lrW => exact confined_aligned rfl (loadReserved_keepsCsrs _).andThen_ok (.andThen fun _ _ => .ok (.of_x _ _))
  | scW => exact confined_aligned rfl (storeReserved_keepsCsrs _ _).andThen_ok (.andThen fun _ _ => .ok (.of_x _ _))
  | amoswapW | amoaddW | amoxorW | amoandW | amoorW | amominW | amomaxW | amominuW | amomaxuW =>
    delta exec
    exact confined_amo rfl

/-! ### The next state -/

/-- No instruction changes the configuration, the schedule, the gates or a usual answer (R56, R57). -/
theorem exec_keeps_configuration {i : Instr} (h : exec i s = .next t) :
    t.cfg = s.cfg ∧ t.schedule = s.schedule ∧ t.env.gates = s.env.gates ∧ t.env.sqrtModes = s.env.sqrtModes ∧
      t.env.onTrap = s.env.onTrap := by
  obtain ⟨a, ho, hreach, -⟩ := exec_runs i s
  obtain ⟨hgates, hsqrt, htrap⟩ := hreach.reach.answers
  rw [ho] at h
  cases a <;> cases h <;> exact ⟨rfl, rfl, hgates, hsqrt, htrap⟩

/-- The core after an instruction is the one before with allowed writes applied, or as before if it trapped. -/
theorem exec_cpu {i : Instr} (h : exec i s = .next t) :
    (∃ len w, t.cpu = s.cpu.apply len w ∧ w.Within i.ext) ∨ t.cpu = s.cpu := by
  obtain ⟨len, a, ho, -, hw⟩ := exec_confined i s
  rw [ho] at h
  cases a with
  | ok w e => cases h; exact .inl ⟨len, w, rfl, hw w e rfl⟩
  | trap tr e => cases h; exact .inr rfl

theorem exec_keeps_csrs {i : Instr} (hx : i.ext ≠ .zicsr) (h : exec i s = .next t) : t.env.csrs = s.env.csrs := by
  obtain ⟨len, a, ho, hcsrs, -⟩ := exec_confined i s
  rw [ho] at h
  cases a <;> cases h <;> exact hcsrs hx

/-- Outside Zicsr an instruction only accrues flags (R416). -/
theorem exec_accrues {i : Instr} (hx : i.ext ≠ .zicsr) (h : exec i s = .next t) :
    ∃ flags, t.cpu.fcsr = accrue s.cpu.fcsr flags ∧ (isFpExt i.ext = false → flags = noFlags) := by
  rcases exec_cpu h with ⟨len, w, hcpu, hw⟩ | hcpu
  · exact ⟨w.flags, by rw [hcpu, Cpu.apply_fcsr, hw.fcsr hx, Option.getD_none], hw.flags⟩
  · exact ⟨noFlags, by rw [hcpu, accrue_noFlags], fun _ => rfl⟩

/-- Outside floating point no instruction writes an f register (R201). -/
theorem exec_keeps_f {i : Instr} (hx : isFpExt i.ext = false) (h : exec i s = .next t) (r : FReg) :
    t.cpu.readF r = s.cpu.readF r := by
  rcases exec_cpu h with ⟨len, w, hcpu, hw⟩ | hcpu
  · rw [hcpu, Cpu.apply_readF, hw.f hx]
  · rw [hcpu]

/-- Accruing flags leaves frm alone (R416). -/
theorem accrue_frm (b : BitVec 8) (m : BitVec 5) : (accrue b m).extractLsb' 5 3 = b.extractLsb' 5 3 := by
  apply BitVec.eq_of_getLsbD_eq
  intro k hk
  simp [accrue, BitVec.getLsbD_extractLsb', BitVec.getLsbD_or, BitVec.getLsbD_setWidth]

/-- Accruing flags clears none (R416). -/
theorem getLsbD_accrue_of_getLsbD {b : BitVec 8} {k : Nat} (h : b.getLsbD k = true) (m : BitVec 5) :
    (accrue b m).getLsbD k = true := by
  rw [accrue, BitVec.getLsbD_or, h, Bool.true_or]

theorem not_fp_of_mem {x : Ext} (h : x ∈ [Ext.i, .m, .a, .zifencei, .zicsr, .c]) : isFpExt x = false := by
  revert h; cases x <;> decide

theorem integer_of_mem {x : Ext} (h : x ∈ [Ext.i, .m, .a, .zifencei, .c]) : isFpExt x = false ∧ x ≠ .zicsr := by
  revert h; cases x <;> decide

/-- Settles O58: an instruction keeps the environment's usual answers (`exec_runs`), and the rest is what its extension
lets it touch (`exec_confined`). -/
theorem executionTouchesOnlyItsOwn : Obligations.ExecutionTouchesOnlyItsOwn := by
  intro i s t h
  obtain ⟨hcfg, hschedule, hgates, hsqrt, htrap⟩ := exec_keeps_configuration h
  refine ⟨hcfg, hschedule, hgates, hsqrt, htrap, fun hx => ?_, fun hx => ?_, fun hx => ?_⟩
  · obtain ⟨flags, hfcsr, -⟩ := exec_accrues hx h
    rw [hfcsr]
    exact ⟨exec_keeps_csrs hx h, accrue_frm _ _, fun k _ hk => getLsbD_accrue_of_getLsbD hk flags⟩
  · obtain ⟨hfp, hzicsr⟩ := integer_of_mem hx
    obtain ⟨flags, hfcsr, hflags⟩ := exec_accrues hzicsr h
    rw [hfcsr, hflags hfp, accrue_noFlags]
  · exact exec_keeps_f (not_fp_of_mem hx) h

end Sys2Proof.Machine
end

section
/-! SUPPORT. Integer loads and stores that the environment answers (20_memory.md R84, R85; R215 to R222). -/
namespace Sys2Proof.Machine

variable {s : State} {e : Env} {len : Nat} {imm a : Word} {out : Host.Outcome State Fault Refusal}

/-- An integer load: the bytes of the access, extended by `ext`. -/
theorem loadX_next {sz : Size} {ext : BitVec (8 * sz.bytes) → Word} {rd rs1 : XReg}
    (ho : out = loadX len sz (fun v => ext (v.setWidth (8 * sz.bytes))) rd rs1 imm s) (ha : effAddr s.cpu rs1 imm = a)
    (hsz : sz.bytes ≤ 4) (hal : a.toNat % sz.alignment = 0) (hn : s.env.noTrapIn 1) :
    ∃ t, out = .next t ∧ Retires s t (s.cpu.pc + BitVec.ofNat 32 len)
        (some (rd, ext ((s.env.wordAt 0 (wordAddr a)).extractLsb' (8 * (a.toNat % 4)) (8 * sz.bytes)))) none
        s.cpu.fcsr ∧
      s.env.Asked t.env [.readWord (wordAddr a)] := by
  subst ha
  rw [ho, loadX, memRead_narrow hsz ((aligned_iff _ _).2 hal) hn, Attempt.andThen_ok,
    BitVec.setWidth_setWidth_of_le _ (by omega), BitVec.setWidth_eq]
  exact ⟨_, rfl, by simpa using retires_commit s len { x := some (rd, _) } _, s.env.asked_issue _⟩

/-- A load of a word, all of which is written. -/
theorem loadX_word_next {rd rs1 : XReg} (ho : out = loadX len .word (fun v => v.setWidth 32) rd rs1 imm s)
    (ha : effAddr s.cpu rs1 imm = a) (hal : a.toNat % 4 = 0) (hn : s.env.noTrapIn 1) :
    ∃ t, out = .next t ∧
      Retires s t (s.cpu.pc + BitVec.ofNat 32 len) (some (rd, s.env.wordAt 0 (wordAddr a))) none s.cpu.fcsr ∧
      s.env.Asked t.env [.readWord (wordAddr a)] := by
  have hw : (s.env.wordAt 0 (wordAddr a)).extractLsb' (8 * (a.toNat % 4)) 32 = s.env.wordAt 0 (wordAddr a) := by
    simp [hal]
  exact hw ▸ loadX_next (sz := .word) (ext := id) ho ha (by decide) hal hn

/-- A narrow write, answered. -/
theorem memWrite_narrow {sz : Size} (hsz : sz.bytes ≤ 4) (ha : sz.aligned a = true) (v : BitVec 128)
    (hn : e.noTrapIn 1) :
    memWrite sz a v e = .ok () ((e.issue (.writeWord (wordAddr a) (storeData sz a v) (byteEnable sz a))).store
      (wordAddr a) (storeData sz a v) (byteEnable sz a)) := by
  unfold memWrite
  rw [if_pos ha]
  cases sz with
  | byte | half | word => exact writeWord_of_noTrap hn _ _ _
  | double | quad => simp [Size.bytes] at hsz

/-- An integer store. -/
theorem storeX_next {sz : Size} {rs2 rs1 : XReg} (ho : out = storeX len sz rs2 rs1 imm s)
    (ha : effAddr s.cpu rs1 imm = a) (hsz : sz.bytes ≤ 4) (hal : a.toNat % sz.alignment = 0)
    (hm : Memory.wf s.env.mem) (hn : s.env.noTrapIn 1) :
    ∃ t, out = .next t ∧ Retires s t (s.cpu.pc + BitVec.ofNat 32 len) none none s.cpu.fcsr ∧
      s.env.Stored t.env a sz.bytes ((s.cpu.readX rs2).setWidth 128)
        [.writeWord (wordAddr a)
          ((s.cpu.readX rs2 &&& BitVec.ofNat 32 (2 ^ (8 * sz.bytes) - 1)) <<< (8 * (a.toNat % 4)))
          (BitVec.ofNat 4 (2 ^ sz.bytes - 1) <<< (a.toNat % 4))] := by
  subst ha
  have hal := (aligned_iff _ _).2 hal
  rw [← storeData_narrow, ← laneOf_eq, ho, storeX, memWrite_narrow hsz hal _ hn]
  exact ⟨_, rfl, by simpa using retires_commit s len {} _, stored_narrow hsz hal _ hm⟩

/-- A store of a word, at the word's own address. -/
theorem storeX_word_next {rs2 rs1 : XReg} (ho : out = storeX len .word rs2 rs1 imm s) (ha : effAddr s.cpu rs1 imm = a)
    (hal : a.toNat % 4 = 0) (hm : Memory.wf s.env.mem) (hn : s.env.noTrapIn 1) :
    ∃ t, out = .next t ∧ Retires s t (s.cpu.pc + BitVec.ofNat 32 len) none none s.cpu.fcsr ∧
      s.env.Stored t.env a 4 ((s.cpu.readX rs2).setWidth 128) [.writeWord a (s.cpu.readX rs2) 0b1111#4] := by
  have h := storeX_next (sz := .word) ho ha (by decide) hal hm hn
  rwa [← storeData_narrow, storeData_word hal, wordAddr_word hal, hal, BitVec.setWidth_setWidth_of_le _ (by omega),
    BitVec.setWidth_eq] at h

/-- Settles O15: each load is `loadX`, of one extension of its bytes. -/
theorem integerLoads : Obligations.IntegerLoads := by
  intro s rd rs1 imm d r imm5 imm6 a ca sa w byte half hn p hp
  simp only [List.mem_cons, List.not_mem_nil, or_false, ← creg_eq_cfield d] at hp
  rcases hp with rfl | rfl | rfl | rfl | rfl | rfl | rfl <;> intro hal
  · exact loadX_next (sz := .byte) (ext := sext) rfl rfl (by decide) hal hn
  · exact loadX_next (sz := .byte) (ext := zext) rfl rfl (by decide) hal hn
  · exact loadX_next (sz := .half) (ext := sext) rfl rfl (by decide) hal hn
  · exact loadX_next (sz := .half) (ext := zext) rfl rfl (by decide) hal hn
  · exact loadX_word_next rfl rfl hal hn
  · exact loadX_word_next rfl (effAddr_creg _ _ 2 _) hal hn
  · exact loadX_word_next rfl (effAddr_sp _ 2 _) hal hn

/-- Settles O16: each store is `storeX`. -/
theorem integerStores : Obligations.IntegerStores := by
  intro s rs2 rs1 imm d r imm5 imm6 a ca sa v k hm hn p hp
  simp only [List.mem_cons, List.not_mem_nil, or_false, ← creg_eq_cfield d] at hp
  rcases hp with rfl | rfl | rfl | rfl | rfl <;> intro hal
  · exact storeX_next (sz := .byte) rfl rfl (by decide) hal hm hn
  · exact storeX_next (sz := .half) rfl rfl (by decide) hal hm hn
  · exact storeX_word_next rfl rfl hal hm hn
  · exact storeX_word_next rfl (effAddr_creg _ _ 2 _) hal hm hn
  · exact storeX_word_next rfl (effAddr_sp _ 2 _) hal hm hn

end Sys2Proof.Machine
end

section
/-! SUPPORT. FP accesses that the environment answers, word by word (20_memory.md R84, R85, R88; R432). -/
namespace Sys2Proof.Machine

variable {s : State} {e : Env} {len : Nat} {imm a : Word} {out : Host.Outcome State Fault Refusal} {fmt : Fmt}

/-! ### Values as words (R84, R85) -/

theorem joinWords_one (w0 : Word) : (joinWords [w0]).setWidth 32 = w0 := by simp [joinWords]

/-- The first word is the least significant. -/
theorem joinWords_cons (k : Nat) (hk : k + 32 ≤ 128) (w : Word) (ws : List Word) :
    (joinWords (w :: ws)).setWidth (k + 32) = (joinWords ws).setWidth k ++ w := by
  apply BitVec.eq_of_getLsbD_eq
  intro i hi
  simp only [joinWords, BitVec.getLsbD_setWidth, BitVec.getLsbD_or, BitVec.getLsbD_shiftLeft, BitVec.getLsbD_append]
  have h128 : i < 128 := by omega
  by_cases h : i < 32
  · simp [h, hi, h128]
  · have hk' : i - 32 < k := by omega
    simp [h, hi, h128, hk', BitVec.getLsbD_of_ge w i (by omega)]

theorem joinWords_two (w0 w1 : Word) : (joinWords [w0, w1]).setWidth 64 = w1 ++ w0 := by
  rw [joinWords_cons 32 (by omega), joinWords_one]

theorem joinWords_four (w0 w1 w2 w3 : Word) :
    (joinWords [w0, w1, w2, w3]).setWidth 128 = w3 ++ w2 ++ w1 ++ w0 := by
  rw [joinWords_cons 96 (by omega), joinWords_cons 64 (by omega), joinWords_two]

/-- The words a value is stored as (R85). -/
theorem splitWords_eq_map (n : Nat) (v : BitVec 128) :
    splitWords n v = (List.range n).map fun k => v.extractLsb' (32 * k) 32 := by
  induction n generalizing v with
  | zero => rfl
  | succ n ih => simp [splitWords, ih, List.range_succ_eq_map, Function.comp_def, word_of_rest, low_word]

/-- A store of a format stores the register's own words: the raw low bits (R432). -/
theorem splitWords_readRaw (c : Cpu) (fmt : Fmt) (r : FReg) :
    splitWords (fmt.width / 32) ((readRaw c fmt r).setWidth 128) = splitWords (fmt.width / 32) (c.readF r) := by
  rw [splitWords_eq_map, splitWords_eq_map]
  exact List.map_congr_left fun j hj => readRaw_word c r (List.mem_range.1 hj)

/-! ### FP loads -/

/-- A value of a format is read word by word, all answered. -/
theorem memRead_fmt_of_noTrap (fmt : Fmt) (hal : a.toNat % 4 = 0) (hn : e.noTrapIn (fmt.width / 32)) :
    ∃ e', memRead (fmtSize fmt) a e =
        .ok (joinWords ((List.range (fmt.width / 32)).map fun k => e.wordAt k (a + BitVec.ofNat 32 (4 * k)))) e' ∧
      e.Asked e' ((List.range (fmt.width / 32)).map fun k => .readWord (a + BitVec.ofNat 32 (4 * k))) := by
  cases fmt with
  | s =>
    have hw := wordAddr_word hal
    refine ⟨e.issue (.readWord (wordAddr a)), ?_, ?_⟩
    · rw [fmtSize, memRead_narrow (by decide) ((aligned_iff _ _).2 hal) hn]
      simp [Size.bytes, Fmt.width, joinWords, hal, hw]
    · simpa [Fmt.width, hw] using e.asked_issue (.readWord a)
  | d => exact memRead_wide (sz := .double) (by decide) ((aligned_iff _ _).2 hal) hn
  | q => exact memRead_wide (sz := .quad) (by decide) ((aligned_iff _ _).2 hal) hn

/-- An FP load: `v` is the value its words make. -/
theorem loadF_next {rd : FReg} {rs1 : XReg} {v : BitVec fmt.width} (ho : out = loadF len fmt rd rs1 imm s)
    (ha : effAddr s.cpu rs1 imm = a) (hal : a.toNat % 4 = 0) (hn : s.env.noTrapIn (fmt.width / 32))
    (hv : (joinWords ((List.range (fmt.width / 32)).map fun k => s.env.wordAt k (a + BitVec.ofNat 32 (4 * k)))).setWidth
      fmt.width = v) :
    ∃ t, out = .next t ∧ Retires s t (s.cpu.pc + BitVec.ofNat 32 len) none
        (some (rd, (boxedResult s (fmt := fmt) (v, noFlags)).1)) s.cpu.fcsr ∧
      s.env.Asked t.env ((List.range (fmt.width / 32)).map fun k => .readWord (a + BitVec.ofNat 32 (4 * k))) := by
  subst ha hv
  obtain ⟨e', hr, hq⟩ := memRead_fmt_of_noTrap fmt hal hn
  rw [ho, loadF, hr, Attempt.andThen_ok]
  refine ⟨_, rfl, ?_, hq⟩
  simpa [fpWrites, boxedResult] using retires_commit s len (fpWrites s (fmt := fmt) rd (_, noFlags)) e'

/-- Settles O17: each load is `loadF`, of the value that one, two or four words make. -/
theorem fpLoads : Obligations.FpLoads := by
  intro s rd rs1 imm d r imm5 imm6 a c sp w single double quad p hp
  simp only [List.mem_cons, List.not_mem_nil, or_false, ← creg_eq_cfield d] at hp
  rcases hp with rfl | rfl | rfl | rfl | rfl | rfl | rfl <;> intro hal hn
  · exact loadF_next (fmt := .s) rfl rfl hal hn (joinWords_one _)
  · exact loadF_next (fmt := .d) rfl rfl hal hn (joinWords_two _ _)
  · exact loadF_next (fmt := .q) rfl rfl hal hn (joinWords_four _ _ _ _)
  · exact loadF_next (fmt := .s) rfl (effAddr_creg _ _ 2 _) hal hn (joinWords_one _)
  · exact loadF_next (fmt := .d) rfl (effAddr_creg _ _ 3 _) hal hn (joinWords_two _ _)
  · exact loadF_next (fmt := .s) rfl (effAddr_sp _ 2 _) hal hn (joinWords_one _)
  · exact loadF_next (fmt := .d) rfl (effAddr_sp _ 3 _) hal hn (joinWords_two _ _)

/-! ### FP stores -/

/-- A value of a format is written word by word (R85). -/
theorem memWrite_fmt (fmt : Fmt) (hal : a.toNat % 4 = 0) (v : BitVec 128) (e : Env) :
    memWrite (fmtSize fmt) a v e = writeWords (splitWords (fmt.width / 32) v) a e := by
  have hal' : (fmtSize fmt).aligned a = true := (aligned_iff _ _).2 (by cases fmt <;> exact hal)
  unfold memWrite
  rw [if_pos hal']
  cases fmt with
  | s =>
    show writeWord _ _ _ e = (writeWord a (v.setWidth 32) 0b1111#4 e).andThen fun _ e => .ok () e
    rw [fmtSize, wordAddr_word hal, storeData_word hal, byteEnable_word hal]
    cases writeWord a (v.setWidth 32) 0b1111#4 e <;> rfl
  | d | q => rfl

/-- An FP store writes the register's words in ascending order. -/
theorem storeF_eq {rs2 : FReg} {rs1 : XReg} (ha : effAddr s.cpu rs1 imm = a) (hal : a.toNat % 4 = 0) :
    storeF len fmt rs2 rs1 imm s =
      finish len
        ((writeWords (splitWords (fmt.width / 32) (s.cpu.readF rs2)) a s.env).andThen fun _ e => .ok {} e) s := by
  rw [storeF, ha, memWrite_fmt fmt hal, splitWords_readRaw]

/-- No format has more than the four words of a quad (R402). -/
theorem Fmt.words_le (fmt : Fmt) : fmt.width / 32 ≤ 4 := by cases fmt <;> decide

/-- An FP store: the register's words, and no byte beside them. -/
theorem storeF_next {rs2 : FReg} {rs1 : XReg} (ho : out = storeF len fmt rs2 rs1 imm s)
    (ha : effAddr s.cpu rs1 imm = a) (hal : a.toNat % 4 = 0) (hm : Memory.wf s.env.mem)
    (hn : s.env.noTrapIn (fmt.width / 32)) :
    ∃ t, out = .next t ∧ Retires s t (s.cpu.pc + BitVec.ofNat 32 len) none none s.cpu.fcsr ∧
      s.env.Stored t.env a (4 * (fmt.width / 32)) (s.cpu.readF rs2) ((List.range (fmt.width / 32)).map fun k =>
        .writeWord (a + BitVec.ofNat 32 (4 * k)) ((s.cpu.readF rs2).extractLsb' (32 * k) 32) 0b1111#4) := by
  obtain ⟨e', hw, hs⟩ := writeWords_of_noTrap (fmt.width / 32) a (s.cpu.readF rs2) (Fmt.words_le fmt) hm hn
  rw [ho, storeF_eq ha hal, hw, Attempt.andThen_ok]
  exact ⟨_, rfl, by simpa using retires_commit s len {} e', hs⟩

/-- Settles O18: each store is `storeF`. -/
theorem fpStores : Obligations.FpStores := by
  intro s rs2 rs1 imm d r imm5 imm6 a c sp hm p hp
  simp only [List.mem_cons, List.not_mem_nil, or_false, ← creg_eq_cfield d] at hp
  rcases hp with rfl | rfl | rfl | rfl | rfl | rfl | rfl <;> intro hal hn
  · exact storeF_next (fmt := .s) rfl rfl hal hm hn
  · exact storeF_next (fmt := .d) rfl rfl hal hm hn
  · exact storeF_next (fmt := .q) rfl rfl hal hm hn
  · exact storeF_next (fmt := .s) rfl (effAddr_creg _ _ 2 _) hal hm hn
  · exact storeF_next (fmt := .d) rfl (effAddr_creg _ _ 3 _) hal hm hn
  · exact storeF_next (fmt := .s) rfl (effAddr_sp _ 2 _) hal hm hn
  · exact storeF_next (fmt := .d) rfl (effAddr_sp _ 3 _) hal hm hn

end Sys2Proof.Machine
end

section
/-! SUPPORT. Where a store of several words stops when the environment refuses one: the words before it are written, and
nothing more is asked than `Trap` (20_memory.md R88, R709). -/
namespace Sys2Proof.Machine

variable {s : State} {e e' : Env} {len : Nat} {imm a : Word} {out : Host.Outcome State Fault Refusal} {fmt : Fmt}

/-- The answers left after `l`. -/
theorem Env.Stored.reply {n : Nat} {v : BitVec 128} {l : List Request} (h : e.Stored e' a n v l) (k : Nat) :
    e'.reply k = e.reply (l.length + k) := by
  simp [Env.reply, h.replies, List.getD_eq_getElem?_getD]

/-- Words written, then more words above them. -/
theorem writeWords_append (ws ws' : List Word) (a : Word) (e : Env) :
    writeWords (ws ++ ws') a e =
      (writeWords ws a e).andThen fun _ e => writeWords ws' (a + BitVec.ofNat 32 (4 * ws.length)) e := by
  induction ws generalizing a e with
  | nil => simp [writeWords]
  | cons w ws ih =>
    rw [List.cons_append, writeWords, writeWords]
    cases writeWord a w 0b1111#4 e with
    | ok u e' => rw [Attempt.andThen_ok, Attempt.andThen_ok, ih, word_above, List.length_cons]
    | trap t e' => rfl

/-- The words of a store, parted at word `k`. -/
theorem splitWords_at {k m : Nat} (hk : k < m) (v : BitVec 128) :
    ∃ ws, splitWords m v = splitWords k v ++ v.extractLsb' (32 * k) 32 :: ws := by
  obtain ⟨n, rfl⟩ : ∃ n, m = k + (n + 1) := ⟨m - k - 1, by omega⟩
  exact ⟨(List.range n).map fun j => v.extractLsb' (32 * (k + (j + 1))) 32, by
    simp [splitWords_eq_map, List.range_add, List.range_succ_eq_map, Function.comp_def]⟩

/-- Words written in ascending order, refused at word `k`: those before it are stored and no later one is asked for. -/
theorem writeWords_halfway {k m x : Nat} (a : Word) (v : BitVec 128) (hk : k < m) (hm4 : m ≤ 4) (hm : Memory.wf e.mem)
    (hn : e.noTrapIn k) (hr : e.reply k = .envTrap x) :
    ∃ e', e.Stored e' a (4 * k) v ((List.range k).map fun j =>
        .writeWord (a + BitVec.ofNat 32 (4 * j)) (v.extractLsb' (32 * j) 32) 0b1111#4) ∧
      writeWords (splitWords m v) a e =
        .trap (.env x) (e'.issue (.writeWord (a + BitVec.ofNat 32 (4 * k)) (v.extractLsb' (32 * k) 32) 0b1111#4)) := by
  obtain ⟨e', hw, hs⟩ := writeWords_of_noTrap k a v (by omega) hm hn
  obtain ⟨ws, hws⟩ := splitWords_at hk v
  have hr' : e'.nextReply = .envTrap x := by
    rw [Env.nextReply_eq_reply, hs.reply]
    simpa using hr
  refine ⟨e', hs, ?_⟩
  rw [hws, writeWords_append, hw, Attempt.andThen_ok, writeWords, writeWord, request_envTrap hr', Attempt.andThen_trap,
    splitWords_eq_map, List.length_map, List.length_range]

/-- A trap's outcome is one of two, by the environment's answer (R700, R710). -/
theorem deliver_outcome_cases (t : Trap) (s : State) :
    (deliver t s).outcome = some (.trapped t) ∨ (deliver t s).outcome = some (.halted t) := by
  rw [deliver_outcome]
  cases s.env.trapAnswer
  · exact .inl rfl
  · exact .inr rfl

/-- An FP store refused at word `k`. -/
theorem storeF_halfway {rs2 : FReg} {rs1 : XReg} {k x : Nat} (ho : out = storeF len fmt rs2 rs1 imm s)
    (ha : effAddr s.cpu rs1 imm = a) (hal : a.toNat % 4 = 0) (hm : Memory.wf s.env.mem) (hk : k < fmt.width / 32)
    (hn : s.env.noTrapIn k) (hr : s.env.reply k = .envTrap x) :
    ∃ e t, s.env.Stored e a (4 * k) (s.cpu.readF rs2) ((List.range k).map fun j =>
        .writeWord (a + BitVec.ofNat 32 (4 * j)) ((s.cpu.readF rs2).extractLsb' (32 * j) 32) 0b1111#4) ∧
      out = .next t ∧ t.cpu = s.cpu ∧
      e.Asked t.env [.writeWord (a + BitVec.ofNat 32 (4 * k)) ((s.cpu.readF rs2).extractLsb' (32 * k) 32) 0b1111#4,
        .trap (.env x)] ∧
      (t.outcome = some (.trapped (.env x)) ∨ t.outcome = some (.halted (.env x))) := by
  obtain ⟨e, hs, hw⟩ := writeWords_halfway a (s.cpu.readF rs2) hk (Fmt.words_le fmt) hm hn hr
  rw [ho, storeF_eq ha hal, hw, Attempt.andThen_trap]
  exact ⟨e, _, hs, rfl, rfl, (e.asked_issue _).issue _, deliver_outcome_cases _ _⟩

/-- Settles O20: each store is `storeF`, stopped at word `k`. -/
theorem wideStoreStopsHalfway : Obligations.WideStoreStopsHalfway := by
  intro s rs2 rs1 imm d r imm5 imm6 k x hm p hp
  simp only [List.mem_cons, List.not_mem_nil, or_false, ← creg_eq_cfield d] at hp
  rcases hp with rfl | rfl | rfl | rfl <;> intro write hk hal hn hr
  · exact storeF_halfway (fmt := .d) rfl rfl hal hm hk hn hr
  · exact storeF_halfway (fmt := .q) rfl rfl hal hm hk hn hr
  · exact storeF_halfway (fmt := .d) rfl (effAddr_creg _ _ 3 _) hal hm hk hn hr
  · exact storeF_halfway (fmt := .d) rfl (effAddr_sp _ 3 _) hal hm hk hn hr

end Sys2Proof.Machine
end

section
/-! SUPPORT. A word stored and then loaded (20_memory.md R83, R93). -/
namespace Sys2Proof.Machine

variable {e e' : Env} {a : Word}

/-- A stored word reads back. -/
theorem Env.Stored.readWord {v : BitVec 128} {l : List Request} (h : e.Stored e' a 4 v l) :
    e'.mem.readWord a = v.setWidth 32 := by
  apply lane_ext
  intro k hk
  have hd : (a + BitVec.ofNat 32 k - a).toNat = k := by
    rw [BitVec.add_comm a, BitVec.add_sub_cancel, BitVec.toNat_ofNat]
    omega
  rw [Memory.lane_readWord _ _ _ hk, h.mem, hd, if_pos hk]
  apply BitVec.eq_of_getLsbD_eq
  intro i hi
  have : 8 * k + i < 32 := by omega
  simp [lane, BitVec.getLsbD_extractLsb', this]

theorem Env.usualFor.noTrapIn {n : Nat} (h : e.usualFor n) : e.noTrapIn n := fun k hk t => by simp [h k hk]

theorem Env.wordAt_of_usual {k : Nat} (h : e.reply k = .usual) (a : Word) : e.wordAt k a = e.mem.readWord a := by
  rw [Env.wordAt, h]
  rfl

/-- Settles O21: the store leaves the base and the answers, and its word is the word that the load reads. -/
theorem loadSeesStore : Obligations.LoadSeesStore := by
  intro s rs2 rs1 rd base imm imm' hm hu hrd hbase hal
  have hn : s.env.noTrapIn 1 := Env.noTrapIn_mono hu.noTrapIn (by omega)
  obtain ⟨t, ht, htr, hst⟩ :=
    storeX_word_next (a := s.cpu.readX rs1 + imm.signExtend 32) (out := exec (.sw rs2 rs1 imm) s) rfl rfl hal hm hn
  have hut : t.env.usualFor 1 := fun k hk => (hst.reply k).trans (hu (1 + k) (by omega))
  have hbase' : effAddr t.cpu base (sext imm') = s.cpu.readX rs1 + imm.signExtend 32 := by
    rw [effAddr, htr.x]
    exact hbase.symm
  obtain ⟨u, hnext, hur, -⟩ := loadX_word_next (out := exec (.lw rd base imm') t) rfl hbase' hal hut.noTrapIn
  refine ⟨t, u, ht, hnext, ?_, hur.outcome⟩
  rw [hur.x, wordAddr_word hal, Env.wordAt_of_usual (hut 0 (by omega)), hst.readWord]
  simp [hrd]

end Sys2Proof.Machine
end

section
/-! SUPPORT. The trap of a misaligned access, raised before any request (20_memory.md R86, R87). -/
namespace Sys2Proof.Machine

variable {s : State} {len : Nat} {sz : Size} {a b : Word} {out : Host.Outcome State Fault Refusal}

/-- An instruction that raises one of the core's causes before any request. -/
theorem finish_raise {cause : Cause} {info : Word} (ho : out = finish len (raise cause info s.env) s) :
    ∃ t, out = .next t ∧ Delivers s t (.core cause info) :=
  ⟨_, ho, delivers_deliver _ _⟩

theorem not_aligned (hal : a.toNat % sz.alignment ≠ 0) : ¬ sz.aligned a = true := fun h => hal ((aligned_iff _ _).1 h)

/-- A load, whatever it does with the value. -/
theorem load_misaligned {k : BitVec 128 → Env → Attempt Writes}
    (ho : out = finish len ((memRead sz b s.env).andThen k) s) (hb : b = a) (hal : a.toNat % sz.alignment ≠ 0) :
    ∃ t, out = .next t ∧ Delivers s t (.core .loadAddressMisaligned a) := by
  subst hb
  unfold memRead at ho
  rw [if_neg (not_aligned hal)] at ho
  exact finish_raise ho

/-- A store, of whatever value. -/
theorem store_misaligned {v : BitVec 128} {k : Unit → Env → Attempt Writes}
    (ho : out = finish len ((memWrite sz b v s.env).andThen k) s) (hb : b = a) (hal : a.toNat % sz.alignment ≠ 0) :
    ∃ t, out = .next t ∧ Delivers s t (.core .storeAddressMisaligned a) := by
  subst hb
  unfold memWrite at ho
  rw [if_neg (not_aligned hal)] at ho
  exact finish_raise ho

/-- An atomic, which checks the alignment itself (R323 to R325). -/
theorem atomic_misaligned {act : Attempt Writes} {cause : Cause}
    (ho : out = finish len (if sz.aligned a then act else raise cause a s.env) s) (hal : a.toNat % sz.alignment ≠ 0) :
    ∃ t, out = .next t ∧ Delivers s t (.core cause a) := by
  rw [if_neg (not_aligned hal)] at ho
  exact finish_raise ho

/-- Settles O19: each is a load, a store or an atomic, at its effective address. -/
theorem misalignedAccessTraps : Obligations.MisalignedAccessTraps := by
  intro s rd rs1 rs2 f imm aq rl d r imm5 imm6 a b c sp
  refine ⟨fun p hp => ?_, fun p hp => ?_⟩
  · simp only [List.mem_cons, List.not_mem_nil, or_false] at hp
    rcases hp with rfl | rfl | rfl | rfl | rfl | rfl | rfl | rfl | rfl | rfl | rfl | rfl | rfl <;> intro hal
    · exact load_misaligned (sz := .half) rfl rfl hal
    · exact load_misaligned (sz := .half) rfl rfl hal
    · exact load_misaligned (sz := .word) rfl rfl hal
    · exact load_misaligned (sz := .word) rfl rfl hal
    · exact load_misaligned (sz := .double) rfl rfl hal
    · exact load_misaligned (sz := .quad) rfl rfl hal
    · exact atomic_misaligned (sz := .word) rfl hal
    · exact load_misaligned (sz := .word) rfl (effAddr_creg _ _ 2 _) hal
    · exact load_misaligned (sz := .word) rfl (effAddr_creg _ _ 2 _) hal
    · exact load_misaligned (sz := .double) rfl (effAddr_creg _ _ 3 _) hal
    · exact load_misaligned (sz := .word) rfl (effAddr_sp _ 2 _) hal
    · exact load_misaligned (sz := .word) rfl (effAddr_sp _ 2 _) hal
    · exact load_misaligned (sz := .double) rfl (effAddr_sp _ 3 _) hal
  · simp only [List.mem_cons, List.not_mem_nil, or_false] at hp
    rcases hp with rfl | rfl | rfl | rfl | rfl | rfl | rfl | rfl | rfl | rfl | rfl | rfl | rfl | rfl | rfl | rfl | rfl
      | rfl | rfl | rfl | rfl <;> intro hal
    · exact store_misaligned (sz := .half) rfl rfl hal
    · exact store_misaligned (sz := .word) rfl rfl hal
    · exact store_misaligned (sz := .word) rfl rfl hal
    · exact store_misaligned (sz := .double) rfl rfl hal
    · exact store_misaligned (sz := .quad) rfl rfl hal
    -- SC.W and the nine AMOs.
    iterate 10 exact atomic_misaligned (sz := .word) rfl hal
    · exact store_misaligned (sz := .word) rfl (effAddr_creg _ _ 2 _) hal
    · exact store_misaligned (sz := .word) rfl (effAddr_creg _ _ 2 _) hal
    · exact store_misaligned (sz := .double) rfl (effAddr_creg _ _ 3 _) hal
    · exact store_misaligned (sz := .word) rfl (effAddr_sp _ 2 _) hal
    · exact store_misaligned (sz := .word) rfl (effAddr_sp _ 2 _) hal
    · exact store_misaligned (sz := .double) rfl (effAddr_sp _ 3 _) hal

end Sys2Proof.Machine
end

section
/-! SUPPORT. The decoder inverts the encoder, instruction by instruction (30_encoding.md R120, R121, R146). -/
namespace Sys2Proof

open Fields Enc

/-! ### Decoding at the encoding's own length -/

/-- The decoder of a word or of a parcel. -/
def Encoded.decode : Encoded → Except Reject Instr
  | .half p => decode16 p
  | .word w => decode32 w

variable {c : Encoded} {i : Instr} {w : Word} {p : Parcel}

/-- The major opcodes of the table (R133). -/
def majorOpcodes : List (BitVec 7) :=
  [0x03#7, 0x07#7, 0x0f#7, 0x13#7, 0x17#7, 0x23#7, 0x27#7, 0x2f#7, 0x33#7, 0x37#7, 0x43#7, 0x47#7, 0x4b#7, 0x4f#7,
    0x53#7, 0x63#7, 0x67#7, 0x6f#7, 0x73#7]

theorem opcode_of_decode32 (h : decode32 w = .ok i) : opcode w ∈ majorOpcodes := by
  unfold decode32 at h
  split at h
  case h_20 => cases h
  all_goals next ho => rw [ho]; decide

/-- Every major opcode of the table ends in 11 (R120). -/
theorem opcode_ends_in_11 (h : decode32 w = .ok i) : (opcode w).extractLsb' 0 2 = 0b11#2 :=
  have hall : ∀ o ∈ majorOpcodes, o.extractLsb' 0 2 = 0b11#2 := by decide
  hall _ (opcode_of_decode32 h)

/-- No parcel that decodes does (R120, R600). -/
theorem op_of_decode16 (h : decode16 p = .ok i) : op p ≠ 0b11#2 := fun hop => by
  unfold decode16 at h
  rw [hop] at h
  cases h

/-- The bytes of an encoding decode as the encoding does, whatever follows. -/
theorem decode_bytes (h : c.decode = .ok i) (rest : List Byte) : decode (c.bytes ++ rest) = .ok (i, rest) := by
  cases c with
  | half p => exact decode_half_bytes p rest (op_of_decode16 h) h
  | word w => exact decode_word_bytes w rest (opcode_ends_in_11 h) h

/-! ### Encoding, then decoding -/

/-- C.ANDI's immediate, split and put together. -/
theorem append_bits (v : BitVec 6) : v.extractLsb' 5 1 ++ v.extractLsb' 0 5 = v := by
  apply BitVec.eq_of_getLsbD_eq
  intro k hk
  simp only [BitVec.getLsbD_extractLsb', BitVec.getLsbD_append]
  interval_cases k <;> rfl

/-- C.SLLI's shift amount under its zero bit. -/
theorem top_bit_append (b : BitVec 1) (v : BitVec 5) : (b ++ v).extractLsb' 5 1 = b := BitVec.extractLsb'_append_eq_left

theorem low_bits_append (b : BitVec 1) (v : BitVec 5) : (b ++ v).extractLsb' 0 5 = v :=
  BitVec.extractLsb'_append_eq_right

/-- The decoder inverts the encoder: one group of instructions for each part of the decoder that reads them. -/
theorem decode_encoded (i : Instr) (h : i.wf = true) : i.encoded.decode = .ok i := by
  cases i
  all_goals simp only [Instr.encoded, Encoded.decode]
  case lui | auipc | jal | jalr => simp [decode32]
  case lb | lh | lw | lbu | lhu => simp [decode32, decodeLoad]
  case flw | fld | flq => simp [decode32, decodeLoadFp]
  case fence | fenceI => simp [decode32, decodeMiscMem]
  case addi | slti | sltiu | xori | ori | andi | slli | srli | srai => simp [decode32, decodeOpImm]
  case sb | sh | sw => simp [decode32, decodeStore]
  case fsw | fsd | fsq => simp [decode32, decodeStoreFp]
  case lrW | scW | amoswapW | amoaddW | amoxorW | amoandW | amoorW | amominW | amomaxW | amominuW | amomaxuW =>
    simp [decode32, decodeAmo]
  case add | sub | sll | slt | sltu | xor | srl | sra | or | and => simp [decode32, decodeReg, decodeOp]
  case mul | mulh | mulhsu | mulhu | div | divu | rem | remu => simp [decode32, decodeReg, decodeMulDiv]
  case beq | bne | blt | bge | bltu | bgeu => simp [decode32, decodeBranch]
  case ecall | ebreak => rfl
  case csrrw | csrrs | csrrc | csrrwi | csrrsi | csrrci => simp [decode32, decodeSystem]
  case fmaddS | fmsubS | fnmsubS | fnmaddS | fmaddD | fmsubD | fnmsubD | fnmaddD | fmaddQ | fmsubQ | fnmsubQ
      | fnmaddQ =>
    simp [decode32, withRm, byFmt]
  case faddS | fsubS | fmulS | fdivS | fsqrtS | faddD | fsubD | fmulD | fdivD | fsqrtD | faddQ | fsubQ | fmulQ | fdivQ
      | fsqrtQ =>
    simp [decode32, decodeOpFp, withRm, byFmt]
  case fsgnjS | fsgnjnS | fsgnjxS | fsgnjD | fsgnjnD | fsgnjxD | fsgnjQ | fsgnjnQ | fsgnjxQ =>
    simp [decode32, decodeOpFp, decodeFsgnj, byFmt]
  case fminS | fmaxS | fminD | fmaxD | fminQ | fmaxQ => simp [decode32, decodeOpFp, decodeFminmax, byFmt]
  case feqS | fltS | fleS | feqD | fltD | fleD | feqQ | fltQ | fleQ => simp [decode32, decodeOpFp, decodeFcmp, byFmt]
  case fcvtSD | fcvtDS | fcvtSQ | fcvtQS | fcvtDQ | fcvtQD => simp [decode32, decodeOpFp, withRm, decodeFcvtFmt]
  case fcvtWS | fcvtWuS | fcvtWD | fcvtWuD | fcvtWQ | fcvtWuQ =>
    simp [decode32, decodeOpFp, withRm, decodeFcvtToInt, byFmt]
  case fcvtSW | fcvtSWu | fcvtDW | fcvtDWu | fcvtQW | fcvtQWu =>
    simp [decode32, decodeOpFp, withRm, decodeFcvtFromInt, byFmt]
  case fclassS | fclassD | fclassQ | fmvXW => simp [decode32, decodeOpFp, decodeFmvClass, byFmt]
  case fmvWX => simp [decode32, decodeOpFp, decodeFmvToFp]
  case cAddi4spn => simpa [decode16, decodeC0] using of_decide_eq_true h
  case cFld | cLw | cFlw | cFsd | cSw | cFsw => simp [decode16, decodeC0]
  case cNop | cJal | cLi | cJ | cBeqz | cBnez => simp [decode16, decodeC1]
  case cAddi | cAddi16sp => simpa [decode16, decodeC1] using of_decide_eq_true h
  case cLui rd imm =>
    obtain ⟨hrd, himm⟩ := of_decide_eq_true h
    simp [decode16, decodeC1, hrd, himm]
  case cSrli | cSrai | cAndi | cSub | cXor | cOr | cAnd => simp [decode16, decodeC1, decodeCArith, append_bits]
  case cSlli => simp [decode16, decodeC2, top_bit_append, low_bits_append]
  case cFldsp | cFlwsp | cFsdsp | cSwsp | cFswsp => simp [decode16, decodeC2]
  case cLwsp | cJr | cMv | cJalr | cAdd =>
    have hne := of_decide_eq_true h
    simp [decode16, decodeC2, hne]
  case cEbreak => rfl

/-! ### Any instruction, any bytes -/

/-- Settles O1: the encoding decodes at its own length (`decode_encoded`), and its bytes as the encoding does. -/
theorem decodeAfterEncode : Obligations.DecodeAfterEncode :=
  fun i rest h => decode_bytes (decode_encoded i h) rest

end Sys2Proof
end

section
/-! SUPPORT. The encoder inverts the decoder: what each part of the decoder reads encodes to the word or parcel it read
(30_encoding.md R146). -/
namespace Sys2Proof

open Fields Enc

variable {c : Encoded} {i s d q : Instr} {w : Word} {p : Parcel} {rm : Rm}

/-! ### The value a `match` on two or three bits leaves for its last arm -/

theorem eq_three {v : BitVec 2} (h0 : v ≠ 0#2) (h1 : v ≠ 1#2) (h2 : v ≠ 2#2) : v = 3#2 := by bv_omega

theorem eq_seven {v : BitVec 3} (h0 : v ≠ 0#3) (h1 : v ≠ 1#3) (h2 : v ≠ 2#3) (h3 : v ≠ 3#3) (h4 : v ≠ 4#3)
    (h5 : v ≠ 5#3) (h6 : v ≠ 6#3) : v = 7#3 := by
  bv_omega

/-! ### Each format rebuilt from the fields that a decoder has matched -/

section
variable {f3 : BitVec 3} {f5 r2 : BitVec 5} {f7 opc : BitVec 7} {f2 : BitVec 2}

theorem word_mkU (ho : opcode w = opc) : Encoded.word (mkU (immU w) (rd w) opc) = .word w := by
  rw [← ho, mkU_fields]

theorem word_mkJ (ho : opcode w = opc) : Encoded.word (mkJ (offJ w) (rd w) opc) = .word w := by
  rw [← ho, mkJ_fields]

theorem word_mkI (ho : opcode w = opc) (h3 : funct3 w = f3) :
    Encoded.word (mkI (immI w) (rs1 w) f3 (rd w) opc) = .word w := by
  rw [← ho, ← h3, mkI_fields]

theorem word_mkS (ho : opcode w = opc) (h3 : funct3 w = f3) :
    Encoded.word (mkS (immS w) (rs2 w) (rs1 w) f3 opc) = .word w := by
  rw [← ho, ← h3, mkS_fields]

theorem word_mkB (ho : opcode w = opc) (h3 : funct3 w = f3) :
    Encoded.word (mkB (offB w) (rs2 w) (rs1 w) f3 opc) = .word w := by
  rw [← ho, ← h3, mkB_fields]

theorem word_mkR (ho : opcode w = opc) (h7 : funct7 w = f7) (h3 : funct3 w = f3) :
    Encoded.word (mkR f7 (rs2 w) (rs1 w) f3 (rd w) opc) = .word w := by
  rw [← ho, ← h7, ← h3, mkR_fields]

theorem word_mkFence (ho : opcode w = opc) (h3 : funct3 w = f3) :
    Encoded.word (mkFence (fm w) (pred w) (succ w) (rs1 w) f3 (rd w) opc) = .word w := by
  rw [← ho, ← h3, mkFence_fields]

theorem word_mkAmo (ho : opcode w = opc) (h5 : funct5 w = f5) (h2 : rs2 w = r2) (h3 : funct3 w = f3) :
    Encoded.word (mkAmo f5 (aq w) (rl w) r2 (rs1 w) f3 (rd w) opc) = .word w := by
  rw [← ho, ← h5, ← h2, ← h3, mkAmo_fields]

theorem word_mkR4 (ho : opcode w = opc) (h5 : funct5 w = f5) (hf : fmt w = f2) (h2 : rs2 w = r2) (h3 : funct3 w = f3) :
    Encoded.word (mkR4 f5 f2 r2 (rs1 w) f3 (rd w) opc) = .word w := by
  rw [← ho, ← h5, ← hf, ← h2, ← h3, mkR4_fields]

/-! ### The fmt and rm fields (R137, R144) -/

theorem byFmt_eq_ok (h : byFmt w s d q = .ok i) :
    fmt w = 0b00#2 ∧ s = i ∨ fmt w = 0b01#2 ∧ d = i ∨ fmt w = 0b11#2 ∧ q = i := by
  unfold byFmt at h
  split at h
  case h_1 hf => cases h; exact .inl ⟨hf, rfl⟩
  case h_2 hf => cases h; exact .inr (.inl ⟨hf, rfl⟩)
  case h_3 hf => cases h; exact .inr (.inr ⟨hf, rfl⟩)
  case h_4 => cases h

theorem bits_of_decodeRm {b : BitVec 3} (h : decodeRm b = .ok rm) : b = rm.bits := by
  unfold decodeRm at h
  split at h <;> cases h <;> rfl

theorem withRm_eq_ok {k : Rm → Except Reject Instr} (h : withRm w k = .ok i) :
    ∃ rm, funct3 w = rm.bits ∧ k rm = .ok i := by
  unfold withRm at h
  split at h
  case h_1 rm hrm => exact ⟨rm, bits_of_decodeRm hrm, h⟩
  case h_2 => cases h

/-- One instruction in three formats. -/
theorem encoded_of_byFmt (hs : s.encoded = .word (mkR4 f5 0b00#2 r2 (rs1 w) f3 (rd w) opc))
    (hd : d.encoded = .word (mkR4 f5 0b01#2 r2 (rs1 w) f3 (rd w) opc))
    (hq : q.encoded = .word (mkR4 f5 0b11#2 r2 (rs1 w) f3 (rd w) opc))
    (ho : opcode w = opc) (h5 : funct5 w = f5) (h2 : rs2 w = r2) (h3 : funct3 w = f3) (h : byFmt w s d q = .ok i) :
    i.encoded = .word w := by
  rcases byFmt_eq_ok h with ⟨hf, rfl⟩ | ⟨hf, rfl⟩ | ⟨hf, rfl⟩
  · rw [hs, word_mkR4 ho h5 hf h2 h3]
  · rw [hd, word_mkR4 ho h5 hf h2 h3]
  · rw [hq, word_mkR4 ho h5 hf h2 h3]

end

/-! ### Words, by major opcode -/

theorem encoded_of_decodeLoad (ho : opcode w = 0x03#7) (h : decodeLoad w = .ok i) : i.encoded = .word w := by
  unfold decodeLoad at h
  split at h <;> cases h
  all_goals next h3 => exact word_mkI ho h3

theorem encoded_of_decodeLoadFp (ho : opcode w = 0x07#7) (h : decodeLoadFp w = .ok i) : i.encoded = .word w := by
  unfold decodeLoadFp at h
  split at h <;> cases h
  all_goals next h3 => exact word_mkI ho h3

theorem encoded_of_decodeMiscMem (ho : opcode w = 0x0f#7) (h : decodeMiscMem w = .ok i) : i.encoded = .word w := by
  unfold decodeMiscMem at h
  split at h <;> cases h
  case h_1 h3 => exact word_mkFence ho h3
  case h_2 h3 => exact word_mkI ho h3

theorem encoded_of_decodeOpImm (ho : opcode w = 0x13#7) (h : decodeOpImm w = .ok i) : i.encoded = .word w := by
  unfold decodeOpImm at h
  split at h
  case h_2 h3 =>
    split at h <;> cases h
    next h7 => exact word_mkR ho h7 h3
  case h_6 h3 =>
    split at h <;> cases h
    all_goals next h7 => exact word_mkR ho h7 h3
  case h_8 h0 h1 h2 h3 h4 h5 h6 =>
    cases h
    exact word_mkI ho (eq_seven h0 h1 h2 h3 h4 h5 h6)
  all_goals
    next h3 =>
    cases h
    exact word_mkI ho h3

theorem encoded_of_decodeStore (ho : opcode w = 0x23#7) (h : decodeStore w = .ok i) : i.encoded = .word w := by
  unfold decodeStore at h
  split at h <;> cases h
  all_goals next h3 => exact word_mkS ho h3

theorem encoded_of_decodeStoreFp (ho : opcode w = 0x27#7) (h : decodeStoreFp w = .ok i) : i.encoded = .word w := by
  unfold decodeStoreFp at h
  split at h <;> cases h
  all_goals next h3 => exact word_mkS ho h3

theorem encoded_of_decodeAmo (ho : opcode w = 0x2f#7) (h : decodeAmo w = .ok i) : i.encoded = .word w := by
  unfold decodeAmo at h
  split at h
  case h_2 => cases h
  case h_1 h3 =>
  split at h
  case h_1 h5 =>
    split at h <;> cases h
    next h2 => exact word_mkAmo ho h5 h2 h3
  case h_12 => cases h
  all_goals
    next h5 =>
    cases h
    exact word_mkAmo ho h5 rfl h3

theorem encoded_decodeOp (ho : opcode w = 0x33#7) (h7 : funct7 w = 0b0000000#7) : (decodeOp w).encoded = .word w := by
  unfold decodeOp
  split
  case h_8 h0 h1 h2 h3 h4 h5 h6 => exact word_mkR ho h7 (eq_seven h0 h1 h2 h3 h4 h5 h6)
  all_goals next h3 => exact word_mkR ho h7 h3

theorem encoded_decodeMulDiv (ho : opcode w = 0x33#7) (h7 : funct7 w = 0b0000001#7) :
    (decodeMulDiv w).encoded = .word w := by
  unfold decodeMulDiv
  split
  case h_8 h0 h1 h2 h3 h4 h5 h6 => exact word_mkR ho h7 (eq_seven h0 h1 h2 h3 h4 h5 h6)
  all_goals next h3 => exact word_mkR ho h7 h3

theorem encoded_of_decodeReg (ho : opcode w = 0x33#7) (h : decodeReg w = .ok i) : i.encoded = .word w := by
  unfold decodeReg at h
  split at h
  case h_1 h7 => cases h; exact encoded_decodeOp ho h7
  case h_2 h7 => cases h; exact encoded_decodeMulDiv ho h7
  case h_3 h7 =>
    split at h <;> cases h
    all_goals next h3 => exact word_mkR ho h7 h3
  case h_4 => cases h

theorem encoded_of_decodeBranch (ho : opcode w = 0x63#7) (h : decodeBranch w = .ok i) : i.encoded = .word w := by
  unfold decodeBranch at h
  split at h <;> cases h
  all_goals next h3 => exact word_mkB ho h3

theorem encoded_of_decodeSystem (ho : opcode w = 0x73#7) (h : decodeSystem w = .ok i) : i.encoded = .word w := by
  unfold decodeSystem at h
  split at h
  case h_1 => split at h <;> cases h <;> rfl
  case h_8 => cases h
  all_goals
    next h3 =>
    cases h
    exact word_mkI ho h3

/-! ### OP-FP (R134) -/

theorem encoded_of_decodeFcvtFmt (ho : opcode w = 0x53#7) (h5 : funct5 w = 0x08#5) (h3 : funct3 w = rm.bits)
    (h : decodeFcvtFmt w rm = .ok i) : i.encoded = .word w := by
  unfold decodeFcvtFmt at h
  split at h
  case h_4 => cases h
  all_goals
    next hf =>
    split at h <;> cases h
    all_goals next h2 => exact word_mkR4 ho h5 hf h2 h3

theorem encoded_of_decodeFcvtToInt (ho : opcode w = 0x53#7) (h5 : funct5 w = 0x18#5) (h3 : funct3 w = rm.bits)
    (h : decodeFcvtToInt w rm = .ok i) : i.encoded = .word w := by
  unfold decodeFcvtToInt at h
  split at h
  case h_1 h2 => exact encoded_of_byFmt rfl rfl rfl ho h5 h2 h3 h
  case h_2 h2 => exact encoded_of_byFmt rfl rfl rfl ho h5 h2 h3 h
  case h_3 => cases h

theorem encoded_of_decodeFcvtFromInt (ho : opcode w = 0x53#7) (h5 : funct5 w = 0x1a#5) (h3 : funct3 w = rm.bits)
    (h : decodeFcvtFromInt w rm = .ok i) : i.encoded = .word w := by
  unfold decodeFcvtFromInt at h
  split at h
  case h_1 h2 => exact encoded_of_byFmt rfl rfl rfl ho h5 h2 h3 h
  case h_2 h2 => exact encoded_of_byFmt rfl rfl rfl ho h5 h2 h3 h
  case h_3 => cases h

theorem encoded_of_decodeFmvClass (ho : opcode w = 0x53#7) (h5 : funct5 w = 0x1c#5) (h : decodeFmvClass w = .ok i) :
    i.encoded = .word w := by
  unfold decodeFmvClass at h
  split at h
  case h_2 => cases h
  case h_1 h2 =>
  split at h
  case h_1 h3 =>
    split at h <;> cases h
    next hf => exact word_mkR4 ho h5 hf h2 h3
  case h_2 h3 => exact encoded_of_byFmt rfl rfl rfl ho h5 h2 h3 h
  case h_3 => cases h

theorem encoded_of_decodeFmvToFp (ho : opcode w = 0x53#7) (h5 : funct5 w = 0x1e#5) (h : decodeFmvToFp w = .ok i) :
    i.encoded = .word w := by
  unfold decodeFmvToFp at h
  split at h
  case h_2 => cases h
  case h_1 h2 =>
  split at h
  case h_2 => cases h
  case h_1 h3 =>
  split at h <;> cases h
  next hf => exact word_mkR4 ho h5 hf h2 h3

theorem encoded_of_decodeFsgnj (ho : opcode w = 0x53#7) (h5 : funct5 w = 0x04#5) (h : decodeFsgnj w = .ok i) :
    i.encoded = .word w := by
  unfold decodeFsgnj at h
  split at h
  case h_4 => cases h
  all_goals next h3 => exact encoded_of_byFmt rfl rfl rfl ho h5 rfl h3 h

theorem encoded_of_decodeFminmax (ho : opcode w = 0x53#7) (h5 : funct5 w = 0x05#5) (h : decodeFminmax w = .ok i) :
    i.encoded = .word w := by
  unfold decodeFminmax at h
  split at h
  case h_3 => cases h
  all_goals next h3 => exact encoded_of_byFmt rfl rfl rfl ho h5 rfl h3 h

theorem encoded_of_decodeFcmp (ho : opcode w = 0x53#7) (h5 : funct5 w = 0x14#5) (h : decodeFcmp w = .ok i) :
    i.encoded = .word w := by
  unfold decodeFcmp at h
  split at h
  case h_4 => cases h
  all_goals next h3 => exact encoded_of_byFmt rfl rfl rfl ho h5 rfl h3 h

theorem encoded_of_decodeOpFp (ho : opcode w = 0x53#7) (h : decodeOpFp w = .ok i) : i.encoded = .word w := by
  unfold decodeOpFp at h
  split at h
  case h_5 h5 =>
    split at h
    case h_1 h2 =>
      obtain ⟨rm, h3, h⟩ := withRm_eq_ok h
      exact encoded_of_byFmt rfl rfl rfl ho h5 h2 h3 h
    case h_2 => cases h
  case h_6 h5 => exact encoded_of_decodeFsgnj ho h5 h
  case h_7 h5 => exact encoded_of_decodeFminmax ho h5 h
  case h_8 h5 =>
    obtain ⟨rm, h3, h⟩ := withRm_eq_ok h
    exact encoded_of_decodeFcvtFmt ho h5 h3 h
  case h_9 h5 => exact encoded_of_decodeFcmp ho h5 h
  case h_10 h5 =>
    obtain ⟨rm, h3, h⟩ := withRm_eq_ok h
    exact encoded_of_decodeFcvtToInt ho h5 h3 h
  case h_11 h5 =>
    obtain ⟨rm, h3, h⟩ := withRm_eq_ok h
    exact encoded_of_decodeFcvtFromInt ho h5 h3 h
  case h_12 h5 => exact encoded_of_decodeFmvClass ho h5 h
  case h_13 h5 => exact encoded_of_decodeFmvToFp ho h5 h
  case h_14 => cases h
  -- FADD, FSUB, FMUL and FDIV.
  all_goals
    next h5 =>
    obtain ⟨rm, h3, h⟩ := withRm_eq_ok h
    exact encoded_of_byFmt rfl rfl rfl ho h5 rfl h3 h

/-- The encoder inverts the decoder of words. -/
theorem encoded_of_decode32 (h : decode32 w = .ok i) : i.encoded = .word w := by
  unfold decode32 at h
  split at h
  case h_1 ho => exact encoded_of_decodeLoad ho h
  case h_2 ho => exact encoded_of_decodeLoadFp ho h
  case h_3 ho => exact encoded_of_decodeMiscMem ho h
  case h_4 ho => exact encoded_of_decodeOpImm ho h
  case h_5 ho => cases h; exact word_mkU ho
  case h_6 ho => exact encoded_of_decodeStore ho h
  case h_7 ho => exact encoded_of_decodeStoreFp ho h
  case h_8 ho => exact encoded_of_decodeAmo ho h
  case h_9 ho => exact encoded_of_decodeReg ho h
  case h_10 ho => cases h; exact word_mkU ho
  case h_15 ho => exact encoded_of_decodeOpFp ho h
  case h_16 ho => exact encoded_of_decodeBranch ho h
  case h_17 ho =>
    split at h <;> cases h
    next h3 => exact word_mkI ho h3
  case h_18 ho => cases h; exact word_mkJ ho
  case h_19 ho => exact encoded_of_decodeSystem ho h
  case h_20 => cases h
  -- The four fused multiply-adds.
  all_goals
    next ho =>
    obtain ⟨rm, h3, h⟩ := withRm_eq_ok h
    exact encoded_of_byFmt rfl rfl rfl ho rfl rfl h3 h

/-! ### Parcels, by quadrant -/

section
variable {f3 : BitVec 3} {o : BitVec 2}

theorem half_mkCLD (ho : op p = o) (h3 : cFunct3 p = f3) :
    Encoded.half (mkCLD f3 (immCLD p) (cRs1' p) (cRs2' p) o) = .half p := by
  rw [← ho, ← h3, mkCLD_fields]

theorem half_mkCLW (ho : op p = o) (h3 : cFunct3 p = f3) :
    Encoded.half (mkCLW f3 (immCLW p) (cRs1' p) (cRs2' p) o) = .half p := by
  rw [← ho, ← h3, mkCLW_fields]

theorem half_mkCI {imm : BitVec 6} {r : BitVec 5} (ho : op p = o) (h3 : cFunct3 p = f3) (hi : immCI p = imm)
    (hr : cRd p = r) : Encoded.half (mkCI f3 imm r o) = .half p := by
  rw [← ho, ← h3, ← hi, ← hr, mkCI_fields]

theorem half_mkCIDSP (ho : op p = o) (h3 : cFunct3 p = f3) :
    Encoded.half (mkCIDSP f3 (immCIDSP p) (cRd p) o) = .half p := by
  rw [← ho, ← h3, mkCIDSP_fields]

theorem half_mkCIWSP (ho : op p = o) (h3 : cFunct3 p = f3) :
    Encoded.half (mkCIWSP f3 (immCIWSP p) (cRd p) o) = .half p := by
  rw [← ho, ← h3, mkCIWSP_fields]

theorem half_mkCJ (ho : op p = o) (h3 : cFunct3 p = f3) : Encoded.half (mkCJ f3 (offCJ p) o) = .half p := by
  rw [← ho, ← h3, mkCJ_fields]

theorem half_mkCB (ho : op p = o) (h3 : cFunct3 p = f3) :
    Encoded.half (mkCB f3 (offCB p) (cRs1' p) o) = .half p := by
  rw [← ho, ← h3, mkCB_fields]

theorem half_mkCSSD (ho : op p = o) (h3 : cFunct3 p = f3) :
    Encoded.half (mkCSSD f3 (immCSSD p) (cRs2 p) o) = .half p := by
  rw [← ho, ← h3, mkCSSD_fields]

theorem half_mkCSSW (ho : op p = o) (h3 : cFunct3 p = f3) :
    Encoded.half (mkCSSW f3 (immCSSW p) (cRs2 p) o) = .half p := by
  rw [← ho, ← h3, mkCSSW_fields]

theorem half_mkCBi {b : BitVec 1} {f2 : BitVec 2} {low : BitVec 5} (ho : op p = o) (h3 : cFunct3 p = f3)
    (hb : cBit12 p = b) (h2 : cFunct2 p = f2) (hl : cRs2 p = low) :
    Encoded.half (mkCBi f3 b f2 (cRs1' p) low o) = .half p := by
  rw [← ho, ← h3, ← hb, ← h2, ← hl, mkCBi_fields]

/-- funct6 of CA is funct3, bit 12 and bits 11:10. -/
theorem mkCA_fields (p : Parcel) :
    mkCA (cFunct3 p ++ cBit12 p ++ cFunct2 p) (cRs1' p) (cFunct2a p) (cRs2' p) (op p) = p := by
  apply BitVec.eq_of_getLsbD_eq
  intro k hk
  simp only [cFunct3, cBit12, cFunct2, cRs1', cFunct2a, cRs2', op, mkCA, BitVec.getLsbD_extractLsb',
    BitVec.getLsbD_cast, BitVec.getLsbD_append]
  interval_cases k <;> rfl

theorem half_mkCA {f2 : BitVec 2} (ho : op p = 0b01#2) (h3 : cFunct3 p = 0b100#3) (hb : cBit12 p = 0#1)
    (h2 : cFunct2 p = 0b11#2) (h2a : cFunct2a p = f2) :
    Encoded.half (mkCA 0x23#6 (cRs1' p) f2 (cRs2' p) 0b01#2) = .half p := by
  have h := mkCA_fields p
  rw [ho, h3, hb, h2, h2a] at h
  exact congrArg Encoded.half h

/-- funct4 of CR is funct3 and bit 12. -/
theorem cFunct4_eq (p : Parcel) : cFunct4 p = cFunct3 p ++ cBit12 p := by
  apply BitVec.eq_of_getLsbD_eq
  intro k hk
  simp only [cFunct4, cFunct3, cBit12, BitVec.getLsbD_extractLsb', BitVec.getLsbD_append]
  interval_cases k <;> rfl

theorem half_mkCR {f4 : BitVec 4} {r r2 : BitVec 5} (ho : op p = o) (h4 : cFunct4 p = f4) (hr : cRd p = r)
    (h2 : cRs2 p = r2) : Encoded.half (mkCR f4 r r2 o) = .half p := by
  rw [← ho, ← h4, ← hr, ← h2, mkCR_fields]

end

theorem encoded_of_decodeC0 (ho : op p = 0b00#2) (h : decodeC0 p = .ok i) : i.wf = true ∧ i.encoded = .half p := by
  unfold decodeC0 at h
  split at h
  case h_1 h3 =>
    split at h <;> cases h
    next hne => exact ⟨decide_eq_true hne, by rw [Instr.encoded, ← ho, ← h3, mkCIW_fields]⟩
  case h_2 h3 => cases h; exact ⟨rfl, half_mkCLD ho h3⟩
  case h_5 h3 => cases h; exact ⟨rfl, half_mkCLD ho h3⟩
  case h_8 => cases h
  all_goals
    next h3 =>
    cases h
    exact ⟨rfl, half_mkCLW ho h3⟩

theorem encoded_of_decodeCArith (ho : op p = 0b01#2) (h3 : cFunct3 p = 0b100#3) (h : decodeCArith p = .ok i) :
    i.wf = true ∧ i.encoded = .half p := by
  unfold decodeCArith at h
  split at h
  case h_1 h2 =>
    split at h <;> cases h
    next hb => exact ⟨rfl, half_mkCBi ho h3 hb h2 rfl⟩
  case h_2 h2 =>
    split at h <;> cases h
    next hb => exact ⟨rfl, half_mkCBi ho h3 hb h2 rfl⟩
  case h_3 h2 =>
    cases h
    exact ⟨rfl, half_mkCBi ho h3 (top_bit_append _ _).symm h2 (low_bits_append _ _).symm⟩
  case h_4 h0 h1 h2 =>
    have h2 := eq_three h0 h1 h2
    split at h
    case isFalse => cases h
    case isTrue hb =>
    split at h <;> cases h
    case h_4 ha0 ha1 ha2 => exact ⟨rfl, half_mkCA ho h3 hb h2 (eq_three ha0 ha1 ha2)⟩
    all_goals next ha => exact ⟨rfl, half_mkCA ho h3 hb h2 ha⟩

theorem encoded_of_decodeC1 (ho : op p = 0b01#2) (h : decodeC1 p = .ok i) : i.wf = true ∧ i.encoded = .half p := by
  unfold decodeC1 at h
  split at h
  case h_1 h3 =>
    split at h <;> cases h
    case isTrue hr => exact ⟨rfl, half_mkCI ho h3 rfl hr⟩
    case isFalse hr => exact ⟨decide_eq_true hr, half_mkCI ho h3 rfl rfl⟩
  case h_2 h3 => cases h; exact ⟨rfl, half_mkCJ ho h3⟩
  case h_3 h3 => cases h; exact ⟨rfl, half_mkCI ho h3 rfl rfl⟩
  case h_4 h3 =>
    split at h
    case isTrue hr =>
      split at h <;> cases h
      next hi => exact ⟨decide_eq_true hi, by rw [Instr.encoded, ← ho, ← h3, ← hr, mkCI16SP_fields]⟩
    case isFalse hr =>
      split at h <;> cases h
      next hi => exact ⟨decide_eq_true ⟨hr, hi⟩, half_mkCI ho h3 rfl rfl⟩
  case h_5 h3 => exact encoded_of_decodeCArith ho h3 h
  case h_6 h3 => cases h; exact ⟨rfl, half_mkCJ ho h3⟩
  case h_7 h3 => cases h; exact ⟨rfl, half_mkCB ho h3⟩
  case h_8 h0 h1 h2 h3 h4 h5 h6 => cases h; exact ⟨rfl, half_mkCB ho (eq_seven h0 h1 h2 h3 h4 h5 h6)⟩

theorem encoded_of_decodeC2 (ho : op p = 0b10#2) (h : decodeC2 p = .ok i) : i.wf = true ∧ i.encoded = .half p := by
  unfold decodeC2 at h
  split at h
  case h_1 h3 =>
    split at h <;> cases h
    next hb => exact ⟨rfl, half_mkCI ho h3 (congrArg (· ++ cRs2 p) hb) rfl⟩
  case h_2 h3 => cases h; exact ⟨rfl, half_mkCIDSP ho h3⟩
  case h_3 h3 =>
    split at h <;> cases h
    next hr => exact ⟨decide_eq_true hr, half_mkCIWSP ho h3⟩
  case h_4 h3 => cases h; exact ⟨rfl, half_mkCIWSP ho h3⟩
  case h_5 h3 =>
    split at h
    case isTrue hb =>
      have h4 : cFunct4 p = 8#4 := by rw [cFunct4_eq, h3, hb]; rfl
      split at h
      case isTrue h2 =>
        split at h <;> cases h
        next hr => exact ⟨decide_eq_true hr, half_mkCR ho h4 rfl h2⟩
      case isFalse h2 => cases h; exact ⟨decide_eq_true h2, half_mkCR ho h4 rfl rfl⟩
    case isFalse hb =>
      have hb : cBit12 p = 1#1 := by bv_omega
      have h4 : cFunct4 p = 9#4 := by rw [cFunct4_eq, h3, hb]; rfl
      split at h
      case isTrue h2 =>
        split at h <;> cases h
        case isTrue hr => exact ⟨rfl, half_mkCR ho h4 hr h2⟩
        case isFalse hr => exact ⟨decide_eq_true hr, half_mkCR ho h4 rfl h2⟩
      case isFalse h2 => cases h; exact ⟨decide_eq_true h2, half_mkCR ho h4 rfl rfl⟩
  case h_6 h3 => cases h; exact ⟨rfl, half_mkCSSD ho h3⟩
  case h_7 h3 => cases h; exact ⟨rfl, half_mkCSSW ho h3⟩
  case h_8 h0 h1 h2 h3 h4 h5 h6 => cases h; exact ⟨rfl, half_mkCSSW ho (eq_seven h0 h1 h2 h3 h4 h5 h6)⟩

/-- The encoder inverts the decoder of parcels, which reads only well-formed instructions. -/
theorem encoded_of_decode16 (h : decode16 p = .ok i) : i.wf = true ∧ i.encoded = .half p := by
  unfold decode16 at h
  split at h
  case h_1 ho => exact encoded_of_decodeC0 ho h
  case h_2 ho => exact encoded_of_decodeC1 ho h
  case h_3 ho => exact encoded_of_decodeC2 ho h
  case h_4 => cases h

/-! ### Bytes -/

/-- Only the compressed rows have constraints. -/
theorem wf_of_encoded_word (h : i.encoded = .word w) : i.wf = true := by
  cases i <;> cases h <;> rfl

/-- Whatever an encoding decodes to is well formed and has that encoding. -/
theorem encoded_of_decode (h : c.decode = .ok i) : i.wf = true ∧ i.encoded = c := by
  cases c with
  | half p => exact encoded_of_decode16 h
  | word w => exact ⟨wf_of_encoded_word (encoded_of_decode32 h), encoded_of_decode32 h⟩

/-- The bytes of two bytes put together. -/
theorem bytes_half (b0 b1 : Byte) : (Encoded.half (b1 ++ b0)).bytes = [b0, b1] := by
  have h0 : (b1 ++ b0).extractLsb' 0 8 = b0 := BitVec.extractLsb'_append_eq_right
  have h1 : (b1 ++ b0).extractLsb' 8 8 = b1 := BitVec.extractLsb'_append_eq_left
  rw [Encoded.bytes, h0, h1]

/-- The bytes of four bytes put together. -/
theorem bytes_word (b0 b1 b2 b3 : Byte) : (Encoded.word (b3 ++ b2 ++ b1 ++ b0)).bytes = [b0, b1, b2, b3] := by
  simp only [Encoded.bytes, List.cons.injEq, and_true]
  refine ⟨?_, ?_, ?_, ?_⟩
  all_goals
    apply BitVec.eq_of_getLsbD_eq
    intro k hk
    simp only [BitVec.getLsbD_extractLsb', BitVec.getLsbD_append]
    interval_cases k <;> rfl

/-- The byte decoder reads the bytes of one encoding. -/
theorem bytes_of_decode {bs rest : List Byte} (h : decode bs = .ok (i, rest)) :
    ∃ c : Encoded, c.decode = .ok i ∧ bs = c.bytes ++ rest := by
  unfold decode at h
  split at h
  case h_2 => cases h
  case h_1 b0 b1 bs =>
  split at h
  case isTrue =>
    split at h
    case h_2 => cases h
    case h_1 b2 b3 bs =>
    split at h <;> cases h
    next hi => exact ⟨.word (b3 ++ b2 ++ b1 ++ b0), hi, by rw [bytes_word]; rfl⟩
  case isFalse =>
    split at h <;> cases h
    next hi => exact ⟨.half (b1 ++ b0), hi, by rw [bytes_half]; rfl⟩

/-- Settles O2: the bytes are those of an encoding (`bytes_of_decode`), and what it decodes to has it
(`encoded_of_decode`). -/
theorem encodeAfterDecode : Obligations.EncodeAfterDecode := by
  intro bs rest i h
  obtain ⟨c, hc, rfl⟩ := bytes_of_decode h
  obtain ⟨hwf, rfl⟩ := encoded_of_decode hc
  exact ⟨hwf, rfl⟩

end Sys2Proof
end

section
/-! SUPPORT. The gate and the width that govern each instruction at a step (30_encoding.md R136, R145; 48_compressed.md
R600). -/
namespace Sys2Proof

variable {cfg : Config} {g : Gates} {i : Instr} {p : Parcel} {e : Ext} {gate : Prop}

/-- The decode of a step is the decode of the bits, where the instruction's extension is enabled. -/
theorem decodeStep_eq_ok (bits : Word) (len : Nat) : decodeStep cfg g bits len = .ok i ↔
    (if len = 4 then decode32 bits else decode16 (bits.setWidth 16)) = .ok i ∧ i.ext.enabled cfg g = true := by
  unfold decodeStep
  split
  case h_1 j hj =>
    rw [hj]
    by_cases h : j.enabled cfg g = true
    · rw [if_pos h]
      exact ⟨fun hi => ⟨hi, by cases hi; exact h⟩, And.left⟩
    · rw [if_neg h]
      exact ⟨nofun, fun ⟨hi, he⟩ => by cases hi; exact absurd he h⟩
  case h_2 r hr =>
    rw [hr]
    exact ⟨nofun, fun ⟨hi, _⟩ => by cases hi⟩

/-- A parcel is of one of the compressed extensions. -/
theorem ext_of_half (h : i.encoded = .half p) : i.ext = .c ∨ i.ext = .cf ∨ i.ext = .cd := by
  cases i <;> cases h <;> simp [Instr.ext]

/-- Each of which needs C (R600). -/
theorem cEnabled_of_half (h : i.encoded = .half p) (he : i.ext.enabled cfg g = true) : cEnabled cfg g = true := by
  rcases ext_of_half h with hx | hx | hx <;> rw [hx] at he
  · exact he
  · exact (Bool.and_eq_true_iff.1 he).1
  · exact (Bool.and_eq_true_iff.1 he).1

/-- Without C every parcel is rejected (R600). -/
theorem decodeStep_half_rejected (hc : cEnabled cfg g = false) (bits : Word) :
    ∃ r, decodeStep cfg g bits 2 = .error r := by
  cases hd : decodeStep cfg g bits 2 with
  | error r => exact ⟨r, rfl⟩
  | ok i =>
    obtain ⟨hi, he⟩ := (decodeStep_eq_ok bits 2).1 hd
    obtain ⟨-, henc⟩ := encoded_of_decode16 hi
    simp [cEnabled_of_half henc he] at hc

/-- The instructions of one extension are those its gate lets through. -/
theorem governed_of_ext {l : List Instr} (hl : l.map Instr.ext = List.replicate l.length e)
    (hg : e.enabled cfg g = true ↔ gate) : ∀ i ∈ l, i.ext = e ∧ ∀ (bits : Word) (len : Nat),
      (if len = 4 then decode32 bits else decode16 (bits.setWidth 16)) = .ok i →
        (decodeStep cfg g bits len = .ok i ↔ gate) := by
  intro i hi
  have hx : i.ext = e := List.map_eq_replicate_iff.1 hl i hi
  refine ⟨hx, fun bits len hb => ?_⟩
  rw [decodeStep_eq_ok, hx, hg]
  exact and_iff_right hb

theorem enabled_fp {b : Bool} {n : Nat} :
    (b && decide (n ≤ cfg.flen.bits)) = true ↔ b = true ∧ n ≤ cfg.flen.bits := by
  rw [Bool.and_eq_true, decide_eq_true_iff]

theorem cEnabled_iff : cEnabled cfg g = true ↔ cfg.cImplemented = true ∧ g.c = true := by
  rw [cEnabled, Bool.and_eq_true]

theorem enabled_cfp {b : Bool} {n : Nat} : (cEnabled cfg g && (b && decide (n ≤ cfg.flen.bits))) = true ↔
    cfg.cImplemented = true ∧ g.c = true ∧ b = true ∧ n ≤ cfg.flen.bits := by
  rw [Bool.and_eq_true, cEnabled_iff, enabled_fp, and_assoc]

/-- Settles O4: a step decodes what its bits decode to where the extension is enabled (`decodeStep_eq_ok`); a parcel's
needs C (`decodeStep_half_rejected`); and each list is of one extension (`governed_of_ext`). -/
theorem gatesAndWidthsDecide : Obligations.GatesAndWidthsDecide := by
  refine ⟨fun cfg g bits len i => ?_, fun cfg g bits hc => ?_, ?_⟩
  · rw [decodeStep_eq_ok]
    refine and_congr_right' ?_
    cases i.ext with
    | i | zicsr | zifencei => exact iff_true_intro rfl
    | m | a => exact Iff.rfl
    | f | d | q => exact enabled_fp
    | c => exact cEnabled_iff
    | cf | cd => exact enabled_cfp
  · apply decodeStep_half_rejected
    rcases hc with hc | hc <;> simp [cEnabled, hc]
  · intro cfg g rd rs1 rs2 rs3 shamt rm d r r2 imm upper imm6 imm8 off11 aq rl fm pred succ governs
    exact ⟨governed_of_ext rfl Iff.rfl, governed_of_ext rfl Iff.rfl, governed_of_ext rfl enabled_fp,
      governed_of_ext rfl enabled_fp, governed_of_ext rfl enabled_fp, governed_of_ext rfl cEnabled_iff,
      governed_of_ext rfl enabled_cfp, governed_of_ext rfl enabled_cfp, governed_of_ext rfl (iff_true_intro rfl),
      governed_of_ext rfl (iff_true_intro rfl), governed_of_ext rfl (iff_true_intro rfl)⟩

end Sys2Proof
end

section
/-! SUPPORT. The fields of a word that each part of the decoder accepts (30_encoding.md R133, R134, R137 to R144). -/
namespace Sys2Proof

open Fields

variable {i s d q : Instr} {w : Word} {rm : Rm}

/-! ### The major opcodes other than OP-FP -/

theorem fields_of_decodeSystem (h : decodeSystem w = .ok i) :
    funct3 w ≠ 4#3 ∧ (funct3 w = 0#3 → w = 0x00000073#32 ∨ w = 0x00100073#32) := by
  unfold decodeSystem at h
  split at h
  case h_1 h3 =>
    refine ⟨by rw [h3]; decide, fun _ => ?_⟩
    split at h <;> cases h
    · exact .inl rfl
    · exact .inr rfl
  case h_8 => cases h
  all_goals next h3 => rw [h3]; exact ⟨by decide, nofun⟩

theorem funct3_of_decodeLoad (h : decodeLoad w = .ok i) : funct3 w ∉ [3#3, 6#3, 7#3] := by
  unfold decodeLoad at h
  split at h <;> cases h
  all_goals next h3 => rw [h3]; decide

theorem funct3_of_decodeStore (h : decodeStore w = .ok i) : (funct3 w).toNat ≤ 2 := by
  unfold decodeStore at h
  split at h <;> cases h
  all_goals next h3 => rw [h3]; decide

theorem funct3_of_decodeBranch (h : decodeBranch w = .ok i) : funct3 w ∉ [2#3, 3#3] := by
  unfold decodeBranch at h
  split at h <;> cases h
  all_goals next h3 => rw [h3]; decide

theorem funct3_of_decodeMiscMem (h : decodeMiscMem w = .ok i) : (funct3 w).toNat ≤ 1 := by
  unfold decodeMiscMem at h
  split at h <;> cases h
  all_goals next h3 => rw [h3]; decide

theorem funct3_of_decodeLoadFp (h : decodeLoadFp w = .ok i) : funct3 w ∈ [2#3, 3#3, 4#3] := by
  unfold decodeLoadFp at h
  split at h <;> cases h
  all_goals next h3 => rw [h3]; decide

theorem funct3_of_decodeStoreFp (h : decodeStoreFp w = .ok i) : funct3 w ∈ [2#3, 3#3, 4#3] := by
  unfold decodeStoreFp at h
  split at h <;> cases h
  all_goals next h3 => rw [h3]; decide

theorem funct7_of_decodeOpImm (h : decodeOpImm w = .ok i) :
    (funct3 w = 1#3 → funct7 w = 0#7) ∧ (funct3 w = 5#3 → funct7 w ∈ [0#7, 0x20#7]) := by
  unfold decodeOpImm at h
  split at h
  case h_2 h3 =>
    split at h <;> cases h
    next h7 => rw [h3]; exact ⟨fun _ => h7, nofun⟩
  case h_6 h3 =>
    split at h <;> cases h
    all_goals next h7 => rw [h3, h7]; exact ⟨nofun, fun _ => by decide⟩
  case h_8 h1 _ _ _ h5 _ => exact ⟨fun h => absurd h h1, fun h => absurd h h5⟩
  all_goals next h3 => rw [h3]; exact ⟨nofun, nofun⟩

theorem fields_of_decodeReg (h : decodeReg w = .ok i) :
    funct7 w ∈ [0#7, 1#7, 0x20#7] ∧ (funct7 w = 0x20#7 → funct3 w ∈ [0#3, 5#3]) := by
  unfold decodeReg at h
  split at h
  case h_1 h7 => rw [h7]; exact ⟨by decide, nofun⟩
  case h_2 h7 => rw [h7]; exact ⟨by decide, nofun⟩
  case h_3 h7 =>
    split at h <;> cases h
    all_goals next h3 => rw [h3, h7]; decide
  case h_4 => cases h

theorem fields_of_decodeAmo (h : decodeAmo w = .ok i) :
    funct3 w = 2#3 ∧ (funct5 w = 2#5 → rs2 w = 0#5) ∧
      funct5 w ∈ [0#5, 1#5, 2#5, 3#5, 4#5, 8#5, 0xc#5, 0x10#5, 0x14#5, 0x18#5, 0x1c#5] := by
  unfold decodeAmo at h
  split at h
  case h_2 => cases h
  case h_1 h3 =>
  refine ⟨h3, ?_⟩
  split at h
  case h_1 h5 =>
    split at h <;> cases h
    next h2 => rw [h5]; exact ⟨fun _ => h2, by decide⟩
  case h_12 => cases h
  all_goals next h5 => rw [h5]; exact ⟨nofun, by decide⟩

/-! ### The fmt and rm fields (R137, R144) -/

theorem fmt_of_byFmt (h : byFmt w s d q = .ok i) : fmt w ≠ 2#2 := by
  rcases byFmt_eq_ok h with ⟨hf, -⟩ | ⟨hf, -⟩ | ⟨hf, -⟩ <;> rw [hf] <;> decide

theorem Rm.bits_not_reserved (rm : Rm) : rm.bits ∉ [5#3, 6#3] := by
  cases rm with
  | mode m => cases m <;> decide
  | dyn => decide

theorem funct3_of_withRm {k : Rm → Except Reject Instr} (h : withRm w k = .ok i) : funct3 w ∉ [5#3, 6#3] := by
  obtain ⟨rm, h3, -⟩ := withRm_eq_ok h
  rw [h3]
  exact rm.bits_not_reserved

theorem fmt_of_withRm {k : Rm → Except Reject Instr} (hk : ∀ rm, k rm = .ok i → fmt w ≠ 2#2) (h : withRm w k = .ok i) :
    fmt w ≠ 2#2 := by
  obtain ⟨rm, -, h⟩ := withRm_eq_ok h
  exact hk rm h

/-! ### OP-FP (R134) -/

theorem fields_of_decodeFcvtFmt (h : decodeFcvtFmt w rm = .ok i) :
    fmt w ≠ 2#2 ∧ rs2 w ∈ [0#5, 1#5, 3#5] ∧ rs2 w ≠ (fmt w).setWidth 5 := by
  unfold decodeFcvtFmt at h
  split at h
  case h_4 => cases h
  all_goals
    next hf =>
    split at h <;> cases h
    all_goals next h2 => rw [hf, h2]; decide

theorem fields_of_decodeFcvtToInt (h : decodeFcvtToInt w rm = .ok i) : fmt w ≠ 2#2 ∧ rs2 w ∈ [0#5, 1#5] := by
  unfold decodeFcvtToInt at h
  split at h
  case h_3 => cases h
  all_goals next h2 => exact ⟨fmt_of_byFmt h, by rw [h2]; decide⟩

theorem fields_of_decodeFcvtFromInt (h : decodeFcvtFromInt w rm = .ok i) : fmt w ≠ 2#2 ∧ rs2 w ∈ [0#5, 1#5] := by
  unfold decodeFcvtFromInt at h
  split at h
  case h_3 => cases h
  all_goals next h2 => exact ⟨fmt_of_byFmt h, by rw [h2]; decide⟩

theorem fields_of_decodeFmvClass (h : decodeFmvClass w = .ok i) :
    fmt w ≠ 2#2 ∧ rs2 w = 0#5 ∧ funct3 w ∈ [0#3, 1#3] ∧ (funct3 w = 0#3 → fmt w = 0#2) := by
  unfold decodeFmvClass at h
  split at h
  case h_2 => cases h
  case h_1 h2 =>
  split at h
  case h_1 h3 =>
    split at h <;> cases h
    next hf => rw [hf, h2, h3]; decide
  case h_2 h3 => rw [h3]; exact ⟨fmt_of_byFmt h, h2, by decide, nofun⟩
  case h_3 => cases h

theorem fields_of_decodeFmvToFp (h : decodeFmvToFp w = .ok i) : rs2 w = 0#5 ∧ funct3 w = 0#3 ∧ fmt w = 0#2 := by
  unfold decodeFmvToFp at h
  split at h
  case h_2 => cases h
  case h_1 h2 =>
  split at h
  case h_2 => cases h
  case h_1 h3 =>
  split at h <;> cases h
  next hf => exact ⟨h2, h3, hf⟩

theorem fields_of_decodeFsgnj (h : decodeFsgnj w = .ok i) : fmt w ≠ 2#2 ∧ funct3 w ∈ [0#3, 1#3, 2#3] := by
  unfold decodeFsgnj at h
  split at h
  case h_4 => cases h
  all_goals next h3 => exact ⟨fmt_of_byFmt h, by rw [h3]; decide⟩

theorem fields_of_decodeFminmax (h : decodeFminmax w = .ok i) : fmt w ≠ 2#2 ∧ funct3 w ∈ [0#3, 1#3] := by
  unfold decodeFminmax at h
  split at h
  case h_3 => cases h
  all_goals next h3 => exact ⟨fmt_of_byFmt h, by rw [h3]; decide⟩

theorem fields_of_decodeFcmp (h : decodeFcmp w = .ok i) : fmt w ≠ 2#2 ∧ funct3 w ∈ [0#3, 1#3, 2#3] := by
  unfold decodeFcmp at h
  split at h
  case h_4 => cases h
  all_goals next h3 => exact ⟨fmt_of_byFmt h, by rw [h3]; decide⟩

theorem fmt_of_decodeOpFp (h : decodeOpFp w = .ok i) : fmt w ≠ 2#2 := by
  unfold decodeOpFp at h
  split at h
  case h_5 =>
    split at h
    case h_1 => exact fmt_of_withRm (fun _ => fmt_of_byFmt) h
    case h_2 => cases h
  case h_6 => exact (fields_of_decodeFsgnj h).1
  case h_7 => exact (fields_of_decodeFminmax h).1
  case h_8 => exact fmt_of_withRm (fun _ h => (fields_of_decodeFcvtFmt h).1) h
  case h_9 => exact (fields_of_decodeFcmp h).1
  case h_10 => exact fmt_of_withRm (fun _ h => (fields_of_decodeFcvtToInt h).1) h
  case h_11 => exact fmt_of_withRm (fun _ h => (fields_of_decodeFcvtFromInt h).1) h
  case h_12 => exact (fields_of_decodeFmvClass h).1
  case h_13 =>
    obtain ⟨-, -, hf⟩ := fields_of_decodeFmvToFp h
    rw [hf]
    decide
  case h_14 => cases h
  all_goals exact fmt_of_withRm (fun _ => fmt_of_byFmt) h

/-- The eight funct5 that have an rm field (R134, R137). -/
theorem funct3_of_decodeOpFp (h5 : funct5 w ∈ [0x00#5, 0x01#5, 0x02#5, 0x03#5, 0x0b#5, 0x08#5, 0x18#5, 0x1a#5])
    (h : decodeOpFp w = .ok i) : funct3 w ∉ [5#3, 6#3] := by
  simp only [List.mem_cons, List.not_mem_nil, or_false] at h5
  rcases h5 with h5 | h5 | h5 | h5 | h5 | h5 | h5 | h5 <;> simp only [decodeOpFp, h5] at h
  iterate 4 exact funct3_of_withRm h
  · split at h
    · exact funct3_of_withRm h
    · cases h
  all_goals exact funct3_of_withRm h

theorem funct5_of_decodeOpFp (h : decodeOpFp w = .ok i) : funct5 w ∈ [0#5, 1#5, 2#5, 3#5, 4#5, 5#5, 8#5, 0xb#5, 0x14#5,
    0x18#5, 0x1a#5, 0x1c#5, 0x1e#5] := by
  unfold decodeOpFp at h
  split at h
  case h_14 => cases h
  all_goals next h5 => rw [h5]; decide

theorem rs2_of_decodeFsqrt (h5 : funct5 w = 0xb#5) (h : decodeOpFp w = .ok i) : rs2 w = 0#5 := by
  simp only [decodeOpFp, h5] at h
  split at h
  case h_1 h2 => exact h2
  case h_2 => cases h

theorem decodeFcvtFmt_of_decodeOpFp (h5 : funct5 w = 8#5) (h : decodeOpFp w = .ok i) :
    ∃ rm, decodeFcvtFmt w rm = .ok i := by
  simp only [decodeOpFp, h5] at h
  obtain ⟨rm, -, h⟩ := withRm_eq_ok h
  exact ⟨rm, h⟩

theorem rs2_of_decodeFcvtInt (h5 : funct5 w ∈ [0x18#5, 0x1a#5]) (h : decodeOpFp w = .ok i) : rs2 w ∈ [0#5, 1#5] := by
  simp only [List.mem_cons, List.not_mem_nil, or_false] at h5
  rcases h5 with h5 | h5 <;> simp only [decodeOpFp, h5] at h <;> obtain ⟨rm, -, h⟩ := withRm_eq_ok h
  · exact (fields_of_decodeFcvtToInt h).2
  · exact (fields_of_decodeFcvtFromInt h).2

theorem funct3_of_decodeFsgnj_or_decodeFcmp (h5 : funct5 w ∈ [4#5, 0x14#5]) (h : decodeOpFp w = .ok i) :
    funct3 w ∈ [0#3, 1#3, 2#3] := by
  simp only [List.mem_cons, List.not_mem_nil, or_false] at h5
  rcases h5 with h5 | h5 <;> simp only [decodeOpFp, h5] at h
  · exact (fields_of_decodeFsgnj h).2
  · exact (fields_of_decodeFcmp h).2

/-! ### The parts by opcode and by funct5 -/

theorem decode32_eq_decodeLoad (ho : opcode w = 0x03#7) : decode32 w = decodeLoad w := by simp only [decode32, ho]
theorem decode32_eq_decodeLoadFp (ho : opcode w = 0x07#7) : decode32 w = decodeLoadFp w := by simp only [decode32, ho]
theorem decode32_eq_decodeMiscMem (ho : opcode w = 0x0f#7) : decode32 w = decodeMiscMem w := by simp only [decode32, ho]
theorem decode32_eq_decodeOpImm (ho : opcode w = 0x13#7) : decode32 w = decodeOpImm w := by simp only [decode32, ho]
theorem decode32_eq_decodeStore (ho : opcode w = 0x23#7) : decode32 w = decodeStore w := by simp only [decode32, ho]
theorem decode32_eq_decodeStoreFp (ho : opcode w = 0x27#7) : decode32 w = decodeStoreFp w := by simp only [decode32, ho]
theorem decode32_eq_decodeAmo (ho : opcode w = 0x2f#7) : decode32 w = decodeAmo w := by simp only [decode32, ho]
theorem decode32_eq_decodeReg (ho : opcode w = 0x33#7) : decode32 w = decodeReg w := by simp only [decode32, ho]
theorem decode32_eq_decodeOpFp (ho : opcode w = 0x53#7) : decode32 w = decodeOpFp w := by simp only [decode32, ho]
theorem decode32_eq_decodeBranch (ho : opcode w = 0x63#7) : decode32 w = decodeBranch w := by simp only [decode32, ho]
theorem decode32_eq_decodeSystem (ho : opcode w = 0x73#7) : decode32 w = decodeSystem w := by simp only [decode32, ho]

theorem decodeOpFp_eq_decodeFminmax (h5 : funct5 w = 5#5) : decodeOpFp w = decodeFminmax w := by
  simp only [decodeOpFp, h5]
theorem decodeOpFp_eq_decodeFmvClass (h5 : funct5 w = 0x1c#5) : decodeOpFp w = decodeFmvClass w := by
  simp only [decodeOpFp, h5]
theorem decodeOpFp_eq_decodeFmvToFp (h5 : funct5 w = 0x1e#5) : decodeOpFp w = decodeFmvToFp w := by
  simp only [decodeOpFp, h5]

theorem funct3_of_jalr (ho : opcode w = 0x67#7) (h : decode32 w = .ok i) : funct3 w = 0#3 := by
  simp only [decode32, ho] at h
  split at h
  case h_1 h3 => exact h3
  case h_2 => cases h

/-- The fused multiply-adds have an rm field and a fmt. -/
theorem fields_of_fused (ho : opcode w ∈ [0x43#7, 0x47#7, 0x4b#7, 0x4f#7]) (h : decode32 w = .ok i) :
    funct3 w ∉ [5#3, 6#3] ∧ fmt w ≠ 2#2 := by
  simp only [List.mem_cons, List.not_mem_nil, or_false] at ho
  rcases ho with ho | ho | ho | ho <;> simp only [decode32, ho] at h <;>
    exact ⟨funct3_of_withRm h, fmt_of_withRm (fun _ => fmt_of_byFmt) h⟩

/-- Settles O5: a word that decodes has, in each part of the decoder, the fields its rows have, which are none of the
clauses'. -/
theorem unallocatedWordsRejected : Obligations.UnallocatedWordsRejected := by
  intro w _ _ _ _ _ _ _ h
  cases hd : decode32 w with
  | error e => exact ⟨e, rfl⟩
  | ok i =>
  exfalso
  rcases h with ho | ⟨ho, h3, hne, hne'⟩ | ⟨ho, h3⟩ | ⟨ho, hf⟩ | ⟨ho, h3⟩ | ⟨ho, h3⟩ | ⟨ho, h3⟩ | ⟨ho, h3⟩ | ⟨ho, h3⟩
    | ⟨ho, h3⟩ | ⟨ho, h3⟩ | ⟨ho, h3, h7⟩ | ⟨ho, h3, h7⟩ | ⟨ho, h7⟩ | ⟨ho, h7, h3⟩ | ⟨ho, h3⟩ | ⟨ho, h5, h2⟩ | ⟨ho, h5⟩
    | ⟨ho, h5⟩ | ⟨ho, h5, h2⟩ | ⟨ho, h5, h2⟩ | ⟨ho, h5, h2⟩ | ⟨ho, h5, h3⟩ | ⟨ho, h5, h3⟩ | ⟨ho, h5, h⟩ | ⟨ho, h5, h⟩
  · exact ho (opcode_of_decode32 hd)
  · obtain ⟨-, hw⟩ := fields_of_decodeSystem (decode32_eq_decodeSystem ho ▸ hd)
    exact (hw h3).elim hne hne'
  · exact (fields_of_decodeSystem (decode32_eq_decodeSystem ho ▸ hd)).1 h3
  · rcases ho with ho | ho
    · exact (fields_of_fused ho hd).2 hf
    · exact fmt_of_decodeOpFp (decode32_eq_decodeOpFp ho ▸ hd) hf
  · rcases ho with ho | ⟨ho, h5⟩
    · exact (fields_of_fused ho hd).1 h3
    · exact funct3_of_decodeOpFp h5 (decode32_eq_decodeOpFp ho ▸ hd) h3
  · exact h3 (funct3_of_jalr ho hd)
  · exact funct3_of_decodeLoad (decode32_eq_decodeLoad ho ▸ hd) h3
  · exact h3.not_ge (funct3_of_decodeStore (decode32_eq_decodeStore ho ▸ hd))
  · exact funct3_of_decodeBranch (decode32_eq_decodeBranch ho ▸ hd) h3
  · exact h3.not_ge (funct3_of_decodeMiscMem (decode32_eq_decodeMiscMem ho ▸ hd))
  · simp only [List.mem_cons, List.not_mem_nil, or_false] at ho
    rcases ho with ho | ho
    · exact h3 (funct3_of_decodeLoadFp (decode32_eq_decodeLoadFp ho ▸ hd))
    · exact h3 (funct3_of_decodeStoreFp (decode32_eq_decodeStoreFp ho ▸ hd))
  · exact h7 ((funct7_of_decodeOpImm (decode32_eq_decodeOpImm ho ▸ hd)).1 h3)
  · exact h7 ((funct7_of_decodeOpImm (decode32_eq_decodeOpImm ho ▸ hd)).2 h3)
  · exact h7 (fields_of_decodeReg (decode32_eq_decodeReg ho ▸ hd)).1
  · exact h3 ((fields_of_decodeReg (decode32_eq_decodeReg ho ▸ hd)).2 h7)
  · exact h3 (fields_of_decodeAmo (decode32_eq_decodeAmo ho ▸ hd)).1
  · obtain ⟨-, hlr, -⟩ := fields_of_decodeAmo (decode32_eq_decodeAmo ho ▸ hd)
    exact h2 (hlr h5)
  · obtain ⟨-, -, hf5⟩ := fields_of_decodeAmo (decode32_eq_decodeAmo ho ▸ hd)
    exact h5 hf5
  -- OP-FP.
  all_goals rw [decode32_eq_decodeOpFp ho] at hd
  · exact h5 (funct5_of_decodeOpFp hd)
  · exact h2 (rs2_of_decodeFsqrt h5 hd)
  · obtain ⟨rm, hd⟩ := decodeFcvtFmt_of_decodeOpFp h5 hd
    obtain ⟨-, hsrc, hne⟩ := fields_of_decodeFcvtFmt hd
    exact h2.elim (absurd hsrc) hne
  · exact h2 (rs2_of_decodeFcvtInt h5 hd)
  · exact h3 (funct3_of_decodeFsgnj_or_decodeFcmp h5 hd)
  · exact h3 (fields_of_decodeFminmax (decodeOpFp_eq_decodeFminmax h5 ▸ hd)).2
  · obtain ⟨-, hs, hsel, hmv⟩ := fields_of_decodeFmvClass (decodeOpFp_eq_decodeFmvClass h5 ▸ hd)
    exact h.elim (absurd hs) fun h => h.elim (absurd hsel) fun ⟨h3, hf⟩ => hf (hmv h3)
  · obtain ⟨hs, hsel, hf⟩ := fields_of_decodeFmvToFp (decodeOpFp_eq_decodeFmvToFp h5 ▸ hd)
    exact h.elim (absurd hs) fun h => h.elim (absurd hsel) (absurd hf)

end Sys2Proof
end

section
/-! SUPPORT. The CSR instructions on the three CSRs of the core where there is no FPU (R356). -/
namespace Sys2Proof.Machine

variable {s : State} {csr : FpCsr} {n : BitVec 12} {inst : Word} {out : Host.Outcome State Fault Refusal}

theorem fpCsrsExist_of_no_fpu (h : s.cfg.flen = .none ∨ s.env.gates.f = false) : s.fpCsrsExist = false := by
  rcases h with h | h <;> simp [State.fpCsrsExist, h]

/-- The three numbers of the FP CSRs (R352). -/
theorem fpCsrOf_of_mem (h : n ∈ [0x001#12, 0x002#12, 0x003#12]) : ∃ csr, fpCsrOf n = some csr := by
  simp only [List.mem_cons, List.not_mem_nil, or_false] at h
  rcases h with rfl | rfl | rfl
  · exact ⟨.fflags, rfl⟩
  · exact ⟨.frm, rfl⟩
  · exact ⟨.fcsr, rfl⟩

/-- Without the FPU the operation on an FP CSR raises before any request (R356). -/
theorem csrOp_no_fpu {reads writes : Bool} {f : Word → Word} {rd : XReg} (hs : s.fpCsrsExist = false)
    (hn : fpCsrOf n = some csr) (ho : out = csrOp inst n reads writes f rd s) :
    ∃ t, out = .next t ∧ Delivers s t (.core .illegalInstruction inst) := by
  rw [csrOp, hn] at ho
  simp only [fpCsrOp, hs, Bool.false_eq_true, if_false] at ho
  exact finish_raise ho

/-- Settles O29: the six instructions are one operation, which raises (`csrOp_no_fpu`). -/
theorem fpCsrNeedsFpu : Obligations.FpCsrNeedsFpu := by
  intro s rd rs1 uimm hno n hn i hi
  have hs := fpCsrsExist_of_no_fpu hno
  obtain ⟨csr, hcsr⟩ := fpCsrOf_of_mem hn
  simp only [List.mem_cons, List.not_mem_nil, or_false] at hi
  rcases hi with rfl | rfl | rfl | rfl | rfl | rfl <;> exact csrOp_no_fpu hs hcsr rfl

end Sys2Proof.Machine
end

section
/-! SUPPORT. What the operators of the integer instructions compute, in the numbers of the rules, and the instructions
that compute one register, jump or branch (40_base_integer.md). -/
namespace Sys2Proof.Machine

/-! ### Sums, shifts and comparisons -/

section
variable (a b : Word) (n : Nat)

theorem sub_eq_ofInt : a - b = BitVec.ofInt 32 (a.toInt - b.toInt) := by
  have hadd : BitVec.ofInt 32 (a.toInt - b.toInt) + b = a :=
    calc BitVec.ofInt 32 (a.toInt - b.toInt) + b
      _ = BitVec.ofInt 32 (a.toInt - b.toInt) + BitVec.ofInt 32 b.toInt := by rw [BitVec.ofInt_toInt]
      _ = BitVec.ofInt 32 a.toInt := by rw [← BitVec.ofInt_add, Int.sub_add_cancel]
      _ = a := BitVec.ofInt_toInt
  exact BitVec.sub_eq_iff_eq_add.2 hadd.symm

theorem shiftLeft_eq_ofNat : a <<< n = BitVec.ofNat 32 (a.toNat * 2 ^ n) := by
  rw [← Nat.shiftLeft_eq]
  rfl

theorem ushiftRight_eq_ofNat : a >>> n = BitVec.ofNat 32 (a.toNat / 2 ^ n) := by
  rw [← Nat.shiftRight_eq_div_pow, ← BitVec.toNat_ushiftRight, BitVec.ofNat_toNat, BitVec.setWidth_eq]

theorem sshiftRight_eq_ofInt : a.sshiftRight n = BitVec.ofInt 32 (a.toInt / 2 ^ n) := by
  rw [BitVec.sshiftRight_eq, Int.shiftRight_eq_div_pow, Nat.cast_pow, Nat.cast_ofNat]

/-- Only bits 4:0 of a register shift (R201). -/
theorem shiftAmount_eq : shiftAmount b = b.toNat % 32 := BitVec.extractLsb'_toNat 0 5 b

theorem bne_eq_decide : (a != b) = decide (a ≠ b) := by rw [bne, beq_eq_decide, decide_not]

end

/-! ### Immediates and offsets (R126 to R132) -/

section
variable {w : Nat}

theorem sext_eq_ofInt (v : BitVec w) : sext v = BitVec.ofInt 32 v.toInt := rfl

theorem toInt_sext (hw : w ≤ 32) (v : BitVec w) : (sext v).toInt = v.toInt := BitVec.toInt_signExtend_of_le hw

/-- A scaled signed offset is the field times its unit. -/
theorem sext_scaled (j : Nat) (v : BitVec w) : sext (scaled j v) = BitVec.ofInt 32 (2 ^ j * v.toInt) := by
  rw [sext_eq_ofInt, scaled, BitVec.toInt_append_zero]

theorem immU_eq_ofNat (v : BitVec 20) : immU v = BitVec.ofNat 32 (v.toNat * 4096) :=
  calc immU v
    _ = zext (scaled 12 v) := (BitVec.setWidth_eq _).symm
    _ = BitVec.ofNat 32 (v.toNat * 4096) := by rw [zext_scaled, Nat.mul_comm]; rfl

/-- An indirect target is an even number: the sum without its bit 0 (R208). -/
theorem indirectTarget_eq (c : Cpu) (rs1 : XReg) (imm : Word) :
    indirectTarget c rs1 imm = BitVec.ofNat 32 (2 * ((c.readX rs1 + imm).toNat / 2)) := by
  rw [indirectTarget, effAddr]
  generalize c.readX rs1 + imm = a
  have hmask : ∀ i < 32, (0xFFFFFFFE#32).getLsbD i = decide (1 ≤ i) := by decide
  calc a &&& 0xFFFFFFFE#32
    _ = (a >>> 1) <<< 1 := by
      apply BitVec.eq_of_getLsbD_eq
      intro i hi
      rw [BitVec.getLsbD_and, hmask i hi, BitVec.getLsbD_shiftLeft, BitVec.getLsbD_ushiftRight]
      cases i with
      | zero => simp
      | succ k => simp [hi, Nat.add_comm 1 k]
    _ = BitVec.ofNat 32 (2 * (a.toNat / 2)) := by
      rw [shiftLeft_eq_ofNat, BitVec.toNat_ushiftRight, Nat.shiftRight_eq_div_pow, pow_one, Nat.mul_comm]

end

/-! ### The instructions -/

/-- Settles O7: each is `writeReg` of its rule's value. -/
theorem registerArithmetic : Obligations.RegisterArithmetic := by
  intro s rd rs1 rs2 a b p hp
  simp only [List.mem_cons, List.not_mem_nil, or_false] at hp
  rcases hp with rfl | rfl | rfl | rfl | rfl | rfl | rfl | rfl | rfl | rfl
  · exact writeReg_next rfl rfl
  · exact writeReg_next rfl (sub_eq_ofInt a b)
  · exact writeReg_next rfl (shiftAmount_eq b ▸ shiftLeft_eq_ofNat a _)
  · exact writeReg_next rfl (ite_slt a b _ _)
  · exact writeReg_next rfl (ite_ult a b _ _)
  · exact writeReg_next rfl rfl
  · exact writeReg_next rfl (shiftAmount_eq b ▸ ushiftRight_eq_ofNat a _)
  · exact writeReg_next rfl (shiftAmount_eq b ▸ sshiftRight_eq_ofInt a _)
  · exact writeReg_next rfl rfl
  · exact writeReg_next rfl rfl

/-- Settles O8: each is `writeReg` of its rule's value. -/
theorem immediateArithmetic : Obligations.ImmediateArithmetic := by
  intro s rd rs1 imm shamt upper a b u p hp
  have himm : b.toInt = imm.toInt := toInt_sext (by decide) imm
  have hu : immU upper = u := immU_eq_ofNat upper
  simp only [List.mem_cons, List.not_mem_nil, or_false] at hp
  rcases hp with rfl | rfl | rfl | rfl | rfl | rfl | rfl | rfl | rfl | rfl | rfl
  · exact writeReg_next rfl (by rw [BitVec.ofInt_add, BitVec.ofInt_toInt, sext_eq_ofInt])
  · exact writeReg_next rfl (himm ▸ ite_slt a b _ _)
  · exact writeReg_next rfl (ite_ult a b _ _)
  · exact writeReg_next rfl rfl
  · exact writeReg_next rfl rfl
  · exact writeReg_next rfl rfl
  · exact writeReg_next rfl (shiftLeft_eq_ofNat a _)
  · exact writeReg_next rfl (ushiftRight_eq_ofNat a _)
  · exact writeReg_next rfl (sshiftRight_eq_ofInt a _)
  · exact writeReg_next rfl hu
  · exact writeReg_next rfl (by rw [hu])

/-- Settles O11: each is `jump`, to the pc and a scaled offset (`sext_scaled`) or to an indirect target. -/
theorem jumpsLink : Obligations.JumpsLink := by
  intro s rd rs1 imm off off11 indirect p hp
  simp only [List.mem_cons, List.not_mem_nil, or_false] at hp
  rcases hp with rfl | rfl | rfl | rfl | rfl | rfl
  · exact jump_next rfl (congrArg (s.cpu.pc + ·) (sext_scaled 1 off))
  · exact jump_next rfl (indirectTarget_eq s.cpu rs1 _)
  · exact jump_next rfl (congrArg (s.cpu.pc + ·) (sext_scaled 1 off11))
  · exact jump_next rfl (congrArg (s.cpu.pc + ·) (sext_scaled 1 off11))
  · exact jump_next rfl (indirectTarget_eq s.cpu rs1 _)
  · exact jump_next rfl (indirectTarget_eq s.cpu rs1 _)

/-- Settles O12: each is `branch`, with its rule's condition and a scaled offset. -/
theorem branchesChoose : Obligations.BranchesChoose := by
  intro s rs1 rs2 off c1 off8 a b c p hp
  have hc : s.cpu.readX (creg c1) = c := congrArg s.cpu.readX (creg_eq_cfield c1)
  have h0 : s.cpu.readX 0#5 = 0#32 := s.cpu.readX_zero
  simp only [List.mem_cons, List.not_mem_nil, or_false] at hp
  rcases hp with rfl | rfl | rfl | rfl | rfl | rfl | rfl | rfl
  · exact branch_next rfl (beq_eq_decide a b) (sext_scaled 1 off)
  · exact branch_next rfl (bne_eq_decide a b) (sext_scaled 1 off)
  · exact branch_next rfl rfl (sext_scaled 1 off)
  · exact branch_next rfl rfl (sext_scaled 1 off)
  · exact branch_next rfl rfl (sext_scaled 1 off)
  · exact branch_next rfl rfl (sext_scaled 1 off)
  · exact branch_next rfl (by rw [hc, h0, beq_eq_decide]) (sext_scaled 1 off8)
  · exact branch_next rfl (by rw [hc, h0, bne_eq_decide]) (sext_scaled 1 off8)

/-- An instruction that commits no write only advances the pc. -/
theorem retire_nothing_next {s : State} {len : Nat} {out : Host.Outcome State Fault Refusal}
    (h : out = retire len {} s) :
    ∃ t, out = .next t ∧ Retires s t (s.cpu.pc + BitVec.ofNat 32 len) none none s.cpu.fcsr ∧
      s.env.Asked t.env [] := by
  simpa using retire_next h

/-- Settles O22: a fence commits no write, whatever its fields. -/
theorem fencesOnlyAdvance : Obligations.FencesOnlyAdvance := by
  intro s fm pred succ imm rs1 rd i hi
  simp only [List.mem_cons, List.not_mem_nil, or_false] at hi
  rcases hi with rfl | rfl
  · exact retire_nothing_next (len := 4) rfl
  · exact retire_nothing_next (len := 4) rfl

/-- Settles O23: each raises its cause before any request (`finish_raise`). -/
theorem callsAndBreaksTrap : Obligations.CallsAndBreaksTrap := by
  intro s p hp
  simp only [List.mem_cons, List.not_mem_nil, or_false] at hp
  rcases hp with rfl | rfl | rfl
  · exact finish_raise (len := 4) rfl
  · exact finish_raise (len := 4) rfl
  · exact finish_raise (len := 2) rfl

/-- Settles O3: the decoder is run on each word and parcel. -/
theorem specWordsDecode : Obligations.SpecWordsDecode := by
  refine ⟨fun p hp => ?_, fun p hp => ?_⟩
  · simp only [List.mem_cons, List.not_mem_nil, or_false] at hp
    rcases hp with rfl | rfl | rfl | rfl | rfl | rfl | rfl | rfl <;> rfl
  · simp only [List.mem_cons, List.not_mem_nil, or_false] at hp
    rcases hp with rfl | rfl | rfl <;> rfl

end Sys2Proof.Machine
end

section
/-! SUPPORT. What the operators of the multiply and divide instructions compute, in the operations of bit vectors, and
the division identity (41_muldiv.md). -/
namespace Sys2Proof.Machine

/-! ### High words of products -/

/-- The high word of an exact product is the upper half of the product of two doublewords that stand for its factors. -/
theorem highWord_mul {x y : BitVec 64} {m n : Int} (hx : x = BitVec.ofInt 64 m) (hy : y = BitVec.ofInt 64 n) :
    highWord (m * n) = (x * y).extractLsb' 32 32 := by
  rw [hx, hy, ← BitVec.ofInt_mul]
  apply BitVec.eq_of_toNat_eq
  rw [highWord, BitVec.extractLsb'_toNat, BitVec.toNat_ofInt, BitVec.toNat_ofInt, Nat.shiftRight_eq_div_pow]
  omega

section
variable (a b : Word)

theorem signExtend_eq_ofInt : a.signExtend 64 = BitVec.ofInt 64 a.toInt := rfl

theorem setWidth_eq_ofInt : a.setWidth 64 = BitVec.ofInt 64 (a.toNat : Int) := by
  rw [BitVec.ofInt_natCast, BitVec.ofNat_toNat]

/-! ### Quotients and remainders -/

theorem sdiv_eq_ofInt : a.sdiv b = BitVec.ofInt 32 (a.toInt.tdiv b.toInt) := by
  apply BitVec.eq_of_toInt_eq
  rw [BitVec.toInt_sdiv, BitVec.toInt_ofInt]

theorem srem_eq_ofInt : a.srem b = BitVec.ofInt 32 (a.toInt - b.toInt * a.toInt.tdiv b.toInt) := by
  rw [← Int.tmod_def, ← BitVec.toInt_srem, BitVec.ofInt_toInt]

/-- DIV's quotient, the overflow pair included (R305). -/
theorem divSigned_eq : divSigned a b = if b = 0#32 then 0xFFFFFFFF#32 else a.sdiv b := by
  by_cases hov : a = 0x80000000#32 ∧ b = 0xFFFFFFFF#32
  · obtain ⟨rfl, rfl⟩ := hov
    decide
  · rw [divSigned, if_neg hov, sdiv_eq_ofInt]

/-- REM's remainder, the overflow pair included (R307). -/
theorem remSigned_eq : remSigned a b = if b = 0#32 then a else a.srem b := by
  by_cases hov : a = 0x80000000#32 ∧ b = 0xFFFFFFFF#32
  · obtain ⟨rfl, rfl⟩ := hov
    decide
  · rw [remSigned, if_neg hov, srem_eq_ofInt]

theorem divUnsigned_eq : divUnsigned a b = if b = 0#32 then 0xFFFFFFFF#32 else a / b := by
  rw [divUnsigned, BitVec.udiv_def]

theorem remUnsigned_eq : remUnsigned a b = if b = 0#32 then a else a % b := by
  rw [remUnsigned, BitVec.umod_def]

/-! ### The division identity (R309) -/

theorem sdiv_mul_add_srem : a.sdiv b * b + a.srem b = a :=
  calc a.sdiv b * b + a.srem b
    _ = BitVec.ofInt 32 (a.toInt.tdiv b.toInt) * BitVec.ofInt 32 b.toInt +
        BitVec.ofInt 32 (a.toInt.tmod b.toInt) := by
      rw [sdiv_eq_ofInt, BitVec.ofInt_toInt, ← BitVec.toInt_srem, BitVec.ofInt_toInt]
    _ = BitVec.ofInt 32 a.toInt := by rw [← BitVec.ofInt_mul, ← BitVec.ofInt_add, Int.tdiv_mul_add_tmod]
    _ = a := BitVec.ofInt_toInt

theorem toNat_udiv_mul_add_umod : (a / b).toNat * b.toNat + (a % b).toNat = a.toNat := by
  rw [BitVec.toNat_udiv, BitVec.toNat_umod, Nat.div_add_mod']

theorem udiv_mul_add_umod : a / b * b + a % b = a := by
  apply BitVec.eq_of_toNat_eq
  rw [BitVec.toNat_add, BitVec.toNat_mul, Nat.mod_add_mod, toNat_udiv_mul_add_umod, Nat.mod_eq_of_lt a.isLt]

/-- Off the overflow pair no quotient leaves the signed words, so the identity needs no wrapping. -/
theorem toInt_sdiv_mul_add_srem (h : ¬ (a = 0x80000000#32 ∧ b = 0xFFFFFFFF#32)) :
    (a.sdiv b).toInt * b.toInt + (a.srem b).toInt = a.toInt := by
  rw [BitVec.toInt_sdiv_of_ne_or_ne a b (not_and_or.1 h), BitVec.toInt_srem, Int.tdiv_mul_add_tmod]

end

/-! ### The instructions -/

/-- Settles O9: each is `writeReg` of its rule's value. -/
theorem multiplyDivide : Obligations.MultiplyDivide := by
  intro s rd rs1 rs2 a b p hp
  simp only [List.mem_cons, List.not_mem_nil, or_false] at hp
  rcases hp with rfl | rfl | rfl | rfl | rfl | rfl | rfl | rfl
  · exact writeReg_next rfl (by rw [BitVec.ofInt_mul, BitVec.ofInt_toInt, BitVec.ofInt_toInt])
  · exact writeReg_next rfl (highWord_mul (signExtend_eq_ofInt a) (signExtend_eq_ofInt b))
  · exact writeReg_next rfl (highWord_mul (signExtend_eq_ofInt a) (setWidth_eq_ofInt b))
  · exact writeReg_next rfl (highWord_mul (setWidth_eq_ofInt a) (setWidth_eq_ofInt b))
  · exact writeReg_next rfl (divSigned_eq a b)
  · exact writeReg_next rfl (divUnsigned_eq a b)
  · exact writeReg_next rfl (remSigned_eq a b)
  · exact writeReg_next rfl (remUnsigned_eq a b)

/-- Settles O10: for a divisor that is not 0 these are the identities of the quotient and the remainder of bit vectors;
by 0 the product is 0 and the remainder is the dividend. -/
theorem divisionIdentity : Obligations.DivisionIdentity := by
  intro a b
  rw [divSigned_eq, remSigned_eq, divUnsigned_eq, remUnsigned_eq]
  by_cases hb : b = 0#32
  · have hzero (q : Word) : a = q * b + a := by rw [hb, BitVec.mul_zero, BitVec.zero_add]
    simp only [if_pos hb]
    exact ⟨fun h => absurd hb h, fun h => absurd hb h, hzero _, hzero _⟩
  · simp only [if_neg hb]
    exact ⟨fun _ hov => (toInt_sdiv_mul_add_srem a b hov).symm, fun _ => (toNat_udiv_mul_add_umod a b).symm,
      (sdiv_mul_add_srem a b).symm, (udiv_mul_add_umod a b).symm⟩

end Sys2Proof.Machine
end

section
/-! SUPPORT. Atomic accesses that the environment answers (42_atomic.md R321 to R336). -/
namespace Sys2Proof.Machine

variable {s : State} {e e' e'' : Env} {a v : Word} {rd rs1 rs2 : XReg} {out : Host.Outcome State Fault Refusal}

/-! ### The commit -/

/-- An execution that ends with one x register to write. -/
theorem finish_x_next {len : Nat} (ho : out = finish len (.ok { x := some (rd, v) } e) s) :
    ∃ t, out = .next t ∧ Retires s t (s.cpu.pc + BitVec.ofNat 32 len) (some (rd, v)) none s.cpu.fcsr ∧ t.env = e :=
  ⟨_, ho, by simpa using retires_commit s len { x := some (rd, v) } e, rfl⟩

/-! ### The requests -/

/-- `LoadReservedWord`, answered (R13). -/
theorem loadReserved_of_noTrap (hn : e.noTrapIn 1) (a : Word) :
    loadReserved a e = .ok (e.wordAt 0 a) { e.issue (.loadReserved a) with reservation := some a } :=
  request_of_noTrap hn

/-- `StoreReservedWord`, answered: it succeeds at the reserved word, unless the script lets it fail (R14, R336). -/
theorem storeReserved_of_noTrap (hn : e.noTrapIn 1) (a v : Word) :
    storeReserved a v e = if e.reservation = some a ∧ e.reply 0 ≠ .scFail then
        .ok true { (e.issue (.storeReserved a v)).store a v 0b1111#4 with reservation := none }
      else .ok false { e.issue (.storeReserved a v) with reservation := none } :=
  request_of_noTrap hn

/-- A word is the low word of its zero extension. -/
theorem low_word_setWidth (w : Word) : w = (w.setWidth 128).extractLsb' 0 32 := by
  rw [← low_word, BitVec.setWidth_setWidth_of_le _ (by decide), BitVec.setWidth_eq]

/-- Requests that write no word, then a store. -/
theorem Env.Asked.trans_stored {n : Nat} {w : BitVec 128} {l l' : List Request} (h : e.Asked e' l)
    (hl : ∀ q ∈ l, q.wordWritten = none) (h' : e'.Stored e'' a n w l') : e.Stored e'' a n w (l ++ l') where
  mem b := by rw [h'.mem, h.mem]
  reservation := by
    have hall (r : Word) : l.all (fun q => q.wordWritten != some r) = true :=
      List.all_eq_true.2 fun q hq => by simp [hl q hq]
    simp only [h'.reservation, h.reservation, List.all_append, hall, Bool.true_and]
  gates := h'.gates.trans h.gates
  sqrtModes := h'.sqrtModes.trans h.sqrtModes
  csrs := h'.csrs.trans h.csrs
  onTrap := h'.onTrap.trans h.onTrap
  replies := by rw [h'.replies, h.replies, List.drop_drop, List.length_append]
  requests := by rw [h'.requests, h.requests, List.append_assoc]

/-- A store-conditional that succeeds stores its word as a `WriteWord` would; apart from the reservation, nothing else
changes (R14). -/
theorem stored_storeReserved (hm : Memory.wf e.mem) (a v : Word) :
    e.Stored { (e.issue (.storeReserved a v)).store a v 0b1111#4 with reservation := e.reservation } a 4
      (v.setWidth 128) [.storeReserved a v] where
  mem := (stored_word a v _ (low_word_setWidth v) hm).mem
  reservation := by cases e.reservation <;> rfl
  gates := by simp
  sqrtModes := by simp
  csrs := by simp
  onTrap := by simp
  replies := by simp
  requests := by simp

/-! ### The instructions -/

/-- Settles O24: LR.W is one `LoadReservedWord`, answered. -/
theorem loadReservedReserves : Obligations.LoadReservedReserves := by
  intro s aq rl rd rs1 a hal hn
  have ho : exec (.lrW aq rl rd rs1) s = finish 4 (.ok { x := some (rd, s.env.wordAt 0 a) }
      { s.env.issue (.loadReserved a) with reservation := some a }) s := by
    show execLrW aq rl rd rs1 s = _
    rw [execLrW, if_pos ((aligned_iff .word a).2 hal), loadReserved_of_noTrap hn, Attempt.andThen_ok]
  obtain ⟨t, ht, hr, he⟩ := finish_x_next ho
  exact ⟨t, ht, hr, by rw [he], by rw [he]; exact s.env.asked_issue (.loadReserved a)⟩

/-- SC.W whose request is answered writes 0 to rd on success and 1 on failure (R324). -/
theorem scW_next {b : Bool} (aq rl : BitVec 1) (hal : (s.cpu.readX rs1).toNat % 4 = 0)
    (h : storeReserved (s.cpu.readX rs1) (s.cpu.readX rs2) s.env = .ok b e) :
    ∃ t, exec (.scW aq rl rd rs1 rs2) s = .next t ∧
      Retires s t (s.cpu.pc + 4#32) (some (rd, if b then 0#32 else 1#32)) none s.cpu.fcsr ∧ t.env = e := by
  refine finish_x_next (len := 4) ?_
  show execScW aq rl rd rs1 rs2 s = _
  rw [execScW, if_pos ((aligned_iff .word _).2 hal), h, Attempt.andThen_ok]

/-- Settles O25: by whether the word is reserved and the script lets the store-conditional succeed. -/
theorem storeConditionalDecides : Obligations.StoreConditionalDecides := by
  intro s aq rl rd rs1 rs2 a v hm hal hn
  have hsc := storeReserved_of_noTrap hn a v
  by_cases h : s.env.reservation = some a ∧ s.env.reply 0 ≠ .scFail
  · rw [if_pos h] at hsc
    obtain ⟨t, ht, hr, he⟩ := scW_next (rd := rd) aq rl hal hsc
    refine ⟨t, ht, by rw [he], fun _ _ => ⟨hr, ?_⟩, fun hno => ?_⟩
    · rw [he]
      exact stored_storeReserved hm a v
    · obtain ⟨hres, hrep⟩ := h
      exact hno.elim (absurd hres) (absurd · hrep)
  · rw [if_neg h] at hsc
    obtain ⟨t, ht, hr, he⟩ := scW_next (rd := rd) aq rl hal hsc
    refine ⟨t, ht, by rw [he], fun hres hrep => absurd ⟨hres, hrep⟩ h, fun _ => ⟨hr, ?_⟩⟩
    rw [he]
    exact s.env.asked_issue (.storeReserved a v)

/-- The AMO sequence, both requests answered (R325). -/
theorem amo_next {op : Word → Word → Word} {new : Word} (ho : out = amo op rd rs1 rs2 s)
    (hnew : op (s.env.wordAt 0 (s.cpu.readX rs1)) (s.cpu.readX rs2) = new) (hm : Memory.wf s.env.mem)
    (hal : (s.cpu.readX rs1).toNat % 4 = 0) (hn : s.env.noTrapIn 2) :
    ∃ t, out = .next t ∧
      Retires s t (s.cpu.pc + 4#32) (some (rd, s.env.wordAt 0 (s.cpu.readX rs1))) none s.cpu.fcsr ∧
      s.env.Stored t.env (s.cpu.readX rs1) 4 (new.setWidth 128)
        [.readWord (s.cpu.readX rs1), .writeWord (s.cpu.readX rs1) new 0b1111#4] := by
  subst hnew
  rw [amo, if_pos ((aligned_iff .word _).2 hal), readWord_of_noTrap hn, Attempt.andThen_ok,
    writeWord_of_noTrap (Env.noTrapIn_issue hn _), Attempt.andThen_ok] at ho
  obtain ⟨t, ht, hr, he⟩ := finish_x_next ho
  refine ⟨t, ht, hr, ?_⟩
  rw [he]
  exact (s.env.asked_issue _).trans_stored (by simp [Request.wordWritten])
    (stored_word _ _ _ (low_word_setWidth _) hm)

/-- Settles O26: each is `amo`, with its rule's operation. -/
theorem atomicMemoryOperations : Obligations.AtomicMemoryOperations := by
  intro s aq rl rd rs1 rs2 a b old hm hal hn p hp
  simp only [List.mem_cons, List.not_mem_nil, or_false] at hp
  rcases hp with rfl | rfl | rfl | rfl | rfl | rfl | rfl | rfl | rfl
  · exact amo_next (op := fun _ b => b) rfl rfl hm hal hn
  · exact amo_next (op := fun a b => a + b) rfl rfl hm hal hn
  · exact amo_next (op := fun a b => a ^^^ b) rfl rfl hm hal hn
  · exact amo_next (op := fun a b => a &&& b) rfl rfl hm hal hn
  · exact amo_next (op := fun a b => a ||| b) rfl rfl hm hal hn
  · exact amo_next (op := fun a b => if a.slt b then a else b) rfl (ite_slt old b _ _) hm hal hn
  · exact amo_next (op := fun a b => if b.slt a then a else b) rfl (ite_slt b old _ _) hm hal hn
  · exact amo_next (op := fun a b => if a.ult b then a else b) rfl (ite_ult old b _ _) hm hal hn
  · exact amo_next (op := fun a b => if b.ult a then a else b) rfl (ite_ult b old _ _) hm hal hn

end Sys2Proof.Machine
end

section
/-! SUPPORT. CSR accesses that the environment answers (43_zicsr_fence.md R350 to R352). -/
namespace Sys2Proof.Machine

variable {s : State} {e : Env} {csr : BitVec 12} {reads writes : Bool} {f : Word → Word} {rd : XReg} {v : Word}

/-! ### The environment -/

theorem Env.issue_eq_afterAsking (e : Env) (q : Request) : e.issue q = e.afterAsking [q] := by
  rw [← Env.issue_afterAsking, Env.afterAsking_nil]

/-- The environment after a delegated CSR access whose requests were all answered, `v` the value written if one is
(R351, R352). -/
def Env.accessCsr (e : Env) (csr : BitVec 12) (reads writes : Bool) (v : Word) : Env :=
  let e' := e.afterAsking (csrRequests csr reads writes v)
  if writes then e'.setCsr csr v else e'

/-- An access changes its own CSR, and that only by a write. -/
theorem Env.accessCsr_read (h : CsrFile.wf e.csrs) (n : Nat) : Store.read (e.accessCsr csr reads writes v).csrs n =
    if writes ∧ n = csr.toNat then v else Store.read e.csrs n := by
  cases writes with
  | false => simp [Env.accessCsr, Env.afterAsking]
  | true => simpa [Env.accessCsr, Env.afterAsking] using Store.read_write h csr.toNat n v

/-- Apart from the CSRs, an access only asks its requests. -/
theorem Env.asked_accessCsr (e : Env) (csr : BitVec 12) (reads writes : Bool) (v : Word) :
    e.Asked { e.accessCsr csr reads writes v with csrs := e.csrs } (csrRequests csr reads writes v) := by
  cases writes <;> exact e.asked_afterAsking _

/-! ### The operation -/

theorem csrWrite_of_noTrap {m : Nat} (h : e.noTrapIn (m + 1)) (csr : BitVec 12) (v : Word) (kind : AccessKind) :
    csrWrite csr v kind e = .ok () ((e.issue (.csrWrite csr v kind)).setCsr csr v) := request_of_noTrap h

/-- A delegated CSR access whose requests are all answered, its read before its write (R352). -/
theorem delegatedCsrOp_of_noTrap (hn : e.noTrapIn (csrRequests csr reads writes v).length)
    (hf : f ((e.reply 0).wordOr (Store.read e.csrs csr.toNat)) = v) (hf0 : reads = false → f 0#32 = v) :
    delegatedCsrOp csr reads writes f rd e =
      .ok { x := if reads then some (rd, (e.reply 0).wordOr (Store.read e.csrs csr.toNat)) else none }
        (e.accessCsr csr reads writes v) := by
  cases reads with
  | false =>
    obtain rfl := hf0 rfl
    cases writes with
    | false => exact congrArg (Attempt.ok _) e.afterAsking_nil.symm
    | true =>
      show (csrWrite csr (f 0#32) .writeOnly e).andThen _ = _
      rw [csrWrite_of_noTrap hn, Env.issue_eq_afterAsking]
      rfl
  | true =>
    subst hf
    cases writes with
    | false =>
      show (csrRead csr .readOnly e).andThen _ = _
      rw [csrRead_of_noTrap hn, Env.issue_eq_afterAsking]
      rfl
    | true =>
      show (csrRead csr .readWrite e).andThen (fun old e => (csrWrite csr (f old) .readWrite e).andThen _) = _
      rw [csrRead_of_noTrap hn, Attempt.andThen_ok, csrWrite_of_noTrap (Env.noTrapIn_issue hn _),
        Env.issue_eq_afterAsking (e.issue _), Env.issue_afterAsking]
      rfl

/-! ### The instructions -/

/-- A CSR instruction on a delegated CSR, its requests all answered (R352). -/
theorem csrOp_delegated_next {out : Host.Outcome State Fault Refusal} {inst : Word} {reads' writes' : Bool}
    (hcsr : csr ∉ [0x001#12, 0x002#12, 0x003#12]) (hwf : CsrFile.wf s.env.csrs)
    (hn : s.env.noTrapIn (csrRequests csr reads writes v).length) (ho : out = csrOp inst csr reads' writes' f rd s)
    (hreads : reads' = reads) (hwrites : writes' = writes)
    (hf : f ((s.env.reply 0).wordOr (Store.read s.env.csrs csr.toNat)) = v) (hf0 : reads = false → f 0#32 = v) :
    ∃ t, out = .next t ∧
      Retires s t (s.cpu.pc + 4#32)
        (if reads then some (rd, (s.env.reply 0).wordOr (Store.read s.env.csrs csr.toNat)) else none) none s.cpu.fcsr ∧
      (∀ n, Store.read t.env.csrs n = if writes ∧ n = csr.toNat then v else Store.read s.env.csrs n) ∧
      s.env.Asked { t.env with csrs := s.env.csrs } (csrRequests csr reads writes v) := by
  subst hreads hwrites
  rw [csrOp, fpCsrOf_eq_none hcsr] at ho
  simp only [delegatedCsrOp_of_noTrap hn hf hf0] at ho
  refine ⟨_, ho, ?_, fun n => Env.accessCsr_read hwf n, s.env.asked_accessCsr csr _ _ v⟩
  simpa using retires_commit s 4 { x := if reads' then some (rd, _) else none } _

/-- Settles O28: the six instructions are one operation on a delegated CSR, and differ in what they read, whether they
write and the value written (`csrOp_delegated_next`). -/
theorem delegatedCsrAccess : Obligations.DelegatedCsrAccess := by
  intro s rd rs1 uimm csr hcsr hwf a u old p hp reads writes kind qs hn
  simp only [List.mem_cons, List.not_mem_nil, or_false] at hp
  rcases hp with rfl | rfl | rfl | rfl | rfl | rfl
  · exact csrOp_delegated_next hcsr hwf hn rfl (bne_zero rd) rfl rfl fun _ => rfl
  · exact csrOp_delegated_next hcsr hwf hn rfl rfl (bne_zero rs1) rfl nofun
  · exact csrOp_delegated_next hcsr hwf hn rfl rfl (bne_zero rs1) rfl nofun
  · exact csrOp_delegated_next hcsr hwf hn rfl (bne_zero rd) rfl rfl fun _ => rfl
  · exact csrOp_delegated_next hcsr hwf hn rfl rfl (bne_zero uimm) rfl nofun
  · exact csrOp_delegated_next hcsr hwf hn rfl rfl (bne_zero uimm) rfl nofun

end Sys2Proof.Machine
end

section
/-! SUPPORT. The floating-point instructions by their shapes: a result written boxed or to an integer register with its
flags accrued, with a rounding mode and without (R405 to R407, R416, R434). -/
namespace Sys2Proof.Machine

variable {s : State} {out : Host.Outcome State Fault Refusal} {fmt : Fmt} {rm : Rm} {m : RoundingMode} {inst : Word}

/-- A result for an f register is written boxed, its flags accrued (R406, R416). -/
theorem fpWrites_next {rd : FReg} {r : FpResult fmt} (ho : out = retire 4 (fpWrites s rd r) s) :
    ∃ t, out = .next t ∧ Retires s t (s.cpu.pc + 4#32) none (some (rd, (boxedResult s r).1))
      (s.cpu.fcsr ||| (boxedResult s r).2.setWidth 8) ∧ s.env.Asked t.env [] := retire_next ho

/-- A result for an x register is written as it is, its flags accrued (R416). -/
theorem intWrites_next {rd : XReg} {r : Word × BitVec 5} (ho : out = retire 4 (intWrites rd r) s) :
    ∃ t, out = .next t ∧ Retires s t (s.cpu.pc + 4#32) (some (rd, r.1)) none (s.cpu.fcsr ||| r.2.setWidth 8) ∧
      s.env.Asked t.env [] := retire_next ho

/-- An operation that rounds to an f register, its mode resolved (R407). -/
theorem withMode_fpWrites_next {rd : FReg} {r : RoundingMode → FpResult fmt} (hm : RoundsBy s rm m)
    (ho : out = withMode inst rm (fun m => fpWrites s rd (r m)) s) :
    ∃ t, out = .next t ∧ Retires s t (s.cpu.pc + 4#32) none (some (rd, (boxedResult s (r m)).1))
      (s.cpu.fcsr ||| (boxedResult s (r m)).2.setWidth 8) ∧ s.env.Asked t.env [] :=
  fpWrites_next (ho.trans (withMode_eq_retire hm inst _))

/-- An operation that rounds to an x register, its mode resolved (R407). -/
theorem withMode_intWrites_next {rd : XReg} {r : RoundingMode → Word × BitVec 5} (hm : RoundsBy s rm m)
    (ho : out = withMode inst rm (fun m => intWrites rd (r m)) s) :
    ∃ t, out = .next t ∧ Retires s t (s.cpu.pc + 4#32) (some (rd, (r m).1)) none
      (s.cpu.fcsr ||| (r m).2.setWidth 8) ∧ s.env.Asked t.env [] :=
  intWrites_next (ho.trans (withMode_eq_retire hm inst _))

/-- Settles O30: each is an operation that rounds to an f register. -/
theorem fpBinaryOperations : Obligations.FpBinaryOperations := by
  intro s rd rs1 rs2 rm m hm a b p hp
  simp only [List.mem_cons, List.not_mem_nil, or_false] at hp
  rcases hp with rfl | rfl | rfl | rfl | rfl | rfl | rfl | rfl | rfl | rfl | rfl | rfl <;>
    exact withMode_fpWrites_next hm rfl

/-- Settles O31: each is an operation that rounds to an f register. -/
theorem fpFusedOperations : Obligations.FpFusedOperations := by
  intro s rd rs1 rs2 rs3 rm m hm out p hp
  simp only [List.mem_cons, List.not_mem_nil, or_false] at hp
  rcases hp with rfl | rfl | rfl | rfl | rfl | rfl | rfl | rfl | rfl | rfl | rfl | rfl <;>
    exact withMode_fpWrites_next hm rfl

/-- Settles O33: each only writes its boxed result. -/
theorem fpSignsAndExtremes : Obligations.FpSignsAndExtremes := by
  intro s rd rs1 rs2 out p hp
  simp only [List.mem_cons, List.not_mem_nil, or_false] at hp
  rcases hp with rfl | rfl | rfl | rfl | rfl | rfl | rfl | rfl | rfl | rfl | rfl | rfl | rfl | rfl | rfl <;>
    exact fpWrites_next rfl

/-- Settles O34: each only writes an integer register; FCLASS is `intWrites` with no flag. -/
theorem fpComparesAndClasses : Obligations.FpComparesAndClasses := by
  intro s rd rs1 rs2 a b truth p hp
  simp only [List.mem_cons, List.not_mem_nil, or_false] at hp
  rcases hp with rfl | rfl | rfl | rfl | rfl | rfl | rfl | rfl | rfl | rfl | rfl | rfl <;>
    exact intWrites_next rfl

/-- Settles O35: each is an operation that rounds to an x register. -/
theorem fpToIntegerConversions : Obligations.FpToIntegerConversions := by
  intro s rd rs1 rm m hm a p hp
  simp only [List.mem_cons, List.not_mem_nil, or_false] at hp
  rcases hp with rfl | rfl | rfl | rfl | rfl | rfl <;> exact withMode_intWrites_next hm rfl

/-- Settles O36: each is an operation that rounds to an f register. -/
theorem fpConversions : Obligations.FpConversions := by
  intro s rd rs rs1 rm m hm v a p hp
  simp only [List.mem_cons, List.not_mem_nil, or_false] at hp
  rcases hp with rfl | rfl | rfl | rfl | rfl | rfl | rfl | rfl | rfl | rfl | rfl | rfl <;>
    exact withMode_fpWrites_next hm rfl

/-! ### The moves (R433) -/

/-- FMV.W.X writes the boxed integer and no flag. -/
theorem execFmvWX_next (s : State) (rd : FReg) (rs1 : XReg) : ∃ t, exec (.fmvWX rd rs1) s = .next t ∧
    Retires s t (s.cpu.pc + 4#32) none (some (rd, (boxedResult s (fmt := .s) (s.cpu.readX rs1, noFlags)).1))
      s.cpu.fcsr ∧ s.env.Asked t.env [] := by
  have ho : exec (.fmvWX rd rs1) s = retire 4 (fpWrites s (fmt := .s) rd (s.cpu.readX rs1, noFlags)) s := rfl
  simpa [boxedResult, noFlags] using fpWrites_next ho

/-- FMV.X.W writes the low word of the register and no flag. -/
theorem execFmvXW_next (s : State) (rd : XReg) (rs1 : FReg) : ∃ t, exec (.fmvXW rd rs1) s = .next t ∧
    Retires s t (s.cpu.pc + 4#32) (some (rd, (s.cpu.readF rs1).extractLsb' 0 32)) none s.cpu.fcsr ∧
    s.env.Asked t.env [] :=
  writeReg_next (len := 4) rfl (low_word _)

/-- The low bits of a boxed value are the value's. -/
theorem setWidth_boxed {flen : Flen} (h : fmt.width ≤ flen.bits) (v : BitVec fmt.width) :
    (boxed flen fmt v).setWidth fmt.width = v := by
  apply BitVec.eq_of_getLsbD_eq
  intro i hi
  simp [getLsbD_boxed, hi, Nat.lt_of_lt_of_le hi h]

/-- Settles O37: the low word of a boxed integer is the integer (`setWidth_boxed`). -/
theorem fpMovesKeepBits : Obligations.FpMovesKeepBits := by
  refine ⟨execFmvXW_next, execFmvWX_next, fun s f rd rs1 hflen hrd => ?_⟩
  obtain ⟨t, ht, hst, -⟩ := execFmvWX_next s f rs1
  obtain ⟨u, hu, htu, -⟩ := execFmvXW_next t rd f
  refine ⟨t, u, ht, hu, ?_⟩
  have hw : Fmt.s.width ≤ s.cfg.flen.bits := by cases h : s.cfg.flen <;> simp_all [Fmt.width, Flen.bits]
  have hx := htu.x rd
  have hf := hst.f f
  simp only [hrd, ne_eq, not_false_iff, and_self, if_true] at hx hf
  rw [hx, hf, ← low_word]
  exact setWidth_boxed hw _

/-! ### A dynamic mode that is none (R407) -/

/-- frm 101, 110 and 111 name no mode (R55). -/
theorem resolveRm_dyn_eq_none {fcsr : BitVec 8} (h : 5 ≤ (fcsr.extractLsb' 5 3).toNat) :
    resolveRm fcsr .dyn = none := by
  have : ∀ b : BitVec 3, 5 ≤ b.toNat → modeOfBits b = none := by decide
  exact this _ h

/-- What needs a mode and has none is illegal before any request (R407, R434). -/
theorem orIllegal_mode_delivers {k : RoundingMode → Env → Attempt Writes} (h : resolveRm s.cpu.fcsr rm = none)
    (ho : out = finish 4 ((orIllegal inst (resolveRm s.cpu.fcsr rm) s.env).andThen k) s) :
    ∃ t, out = .next t ∧ Delivers s t (.core .illegalInstruction inst) := by
  rw [h] at ho
  exact finish_raise ho

/-- Settles O38: every instruction with an rm field, FSQRT too, resolves its mode first. -/
theorem invalidDynamicModeTraps : Obligations.InvalidDynamicModeTraps := by
  intro s rd rs1 rs2 rs3 xd xs hfrm i hi
  have h := resolveRm_dyn_eq_none hfrm
  simp only [List.mem_cons, List.not_mem_nil, or_false] at hi
  rcases hi with rfl | rfl | rfl | rfl | rfl | rfl | rfl | rfl | rfl | rfl | rfl | rfl | rfl | rfl | rfl | rfl | rfl |
    rfl | rfl | rfl | rfl | rfl | rfl | rfl | rfl | rfl | rfl | rfl | rfl | rfl | rfl | rfl | rfl | rfl | rfl | rfl |
    rfl | rfl | rfl | rfl | rfl | rfl | rfl | rfl | rfl <;> exact orIllegal_mode_delivers h rfl

/-! ### NaN boxing (R404 to R406) -/

/-- A register passes the check exactly when its bits from w to FLEN - 1 are ones (R405). -/
theorem and_boxMask_eq_iff {flen : Flen} {p : BitVec 128} : p &&& boxMask flen fmt = boxMask flen fmt ↔
    ∀ i, fmt.width ≤ i → i < flen.bits → p.getLsbD i = true := by
  have hflen := Flen.bits_le flen
  constructor
  · intro h i hw hi
    have := congrArg (·.getLsbD i) h
    simpa [getLsbD_boxMask, hi, hw] using this
  · intro h
    apply BitVec.eq_of_getLsbD_eq
    intro i _
    rw [BitVec.getLsbD_and, getLsbD_boxMask]
    by_cases hi : i < flen.bits <;> by_cases hw : i < fmt.width <;> simp [hi, hw]
    exact h i (by omega) hi

theorem getLsbD_canonicalNaN (fmt : Fmt) (i : Nat) :
    (canonicalNaN fmt).getLsbD i = decide (fmt.fracBits - 1 ≤ i ∧ i < fmt.width - 1) := by
  by_cases h : i < fmt.width
  · have low : ∀ j < fmt.width, (canonicalNaN fmt).getLsbD j = decide (fmt.fracBits - 1 ≤ j ∧ j < fmt.width - 1) := by
      cases fmt <;> decide
    exact low i h
  · have : ¬ i < fmt.width - 1 := by omega
    simp [BitVec.getLsbD_of_ge _ _ (Nat.le_of_not_lt h), this]

/-- Settles O39, by the bits of a boxed value and what the check of a register looks at (`and_boxMask_eq_iff`). -/
theorem nanBoxing : Obligations.NanBoxing := by
  intro flen fmt p v hw
  refine ⟨fun i => ?_, ?_, fun h => ?_, ?_, getLsbD_canonicalNaN fmt⟩
  · rw [getLsbD_boxed]
    by_cases hi : i < fmt.width
    · simp [hi, Nat.lt_of_lt_of_le hi hw]
    · simp [hi]
  · rw [unboxed, if_pos (boxed_and_boxMask flen fmt v), setWidth_boxed hw]
  · rw [unboxed, if_pos (and_boxMask_eq_iff.2 h)]
  · rintro ⟨i, hi, hlt, hbit⟩
    rw [unboxed, if_neg fun h => by simp [and_boxMask_eq_iff.1 h i hi hlt] at hbit]

end Sys2Proof.Machine
end

section
/-! SUPPORT. A pattern is its sign and its magnitude, and the magnitudes are in the order of the values they stand for
(R402, R403, R422, R424 to R427). -/
namespace Sys2Proof.Machine

variable {fmt : Fmt} {a b v : BitVec fmt.width} {neg : Bool} {mag : Nat}

/-! ### The fields of a magnitude (R402) -/

theorem width_eq (fmt : Fmt) : fmt.width = fmt.fracBits + fmt.expBits + 1 := by cases fmt <;> rfl

theorem precision_cast (fmt : Fmt) : (fmt.precision : Int) = fmt.fracBits + 1 := rfl

theorem fracBits_pos (fmt : Fmt) : 0 < fmt.fracBits := by cases fmt <;> decide

theorem two_pow_width_sub_one (fmt : Fmt) : 2 ^ (fmt.width - 1) = 2 ^ fmt.fracBits * 2 ^ fmt.expBits := by
  rw [width_eq, Nat.add_sub_cancel, pow_add]

/-- The NaNs are the magnitudes above infinity's, as many as there are fractions but one. -/
theorem infMagnitude_add (fmt : Fmt) : fmt.infMagnitude + 2 ^ fmt.fracBits = 2 ^ (fmt.width - 1) := by
  have h : 0 < 2 ^ fmt.expBits := by positivity
  rw [Fmt.infMagnitude, two_pow_width_sub_one, mul_comm (2 ^ fmt.fracBits), ← Nat.succ_mul, Nat.succ_eq_add_one,
    Nat.sub_add_cancel h]

theorem infMagnitude_lt (fmt : Fmt) : fmt.infMagnitude < 2 ^ (fmt.width - 1) := by
  have := infMagnitude_add fmt
  have : 0 < 2 ^ fmt.fracBits := by positivity
  omega

theorem infMagnitude_pos (fmt : Fmt) : 0 < fmt.infMagnitude := by cases fmt <;> decide

theorem magnitude_lt (v : BitVec fmt.width) : magnitude v < 2 ^ (fmt.width - 1) := (v.extractLsb' 0 _).isLt

theorem magnitude_eq (v : BitVec fmt.width) : magnitude v = v.toNat % 2 ^ (fmt.width - 1) := by
  simp [magnitude, BitVec.extractLsb'_toNat]

theorem biasedExp_eq (v : BitVec fmt.width) : biasedExp v = magnitude v / 2 ^ fmt.fracBits := by
  rw [magnitude_eq, two_pow_width_sub_one, Nat.mod_mul_right_div_self]
  simp [biasedExp, BitVec.extractLsb'_toNat, Nat.shiftRight_eq_div_pow]

theorem fraction_eq (v : BitVec fmt.width) : fraction v = magnitude v % 2 ^ fmt.fracBits := by
  rw [magnitude_eq, two_pow_width_sub_one, Nat.mod_mod_of_dvd _ (Nat.dvd_mul_right _ _)]
  simp [fraction, BitVec.extractLsb'_toNat]

theorem testBit_magnitude (v : BitVec fmt.width) {i : Nat} (h : i < fmt.width - 1) :
    (magnitude v).testBit i = v.getLsbD i := by
  rw [magnitude_eq, Nat.testBit_mod_two_pow]
  simp [h, BitVec.getLsbD]

/-! ### Packing -/

/-- The top bit of a packed pattern is the sign, the others the magnitude's. -/
theorem getLsbD_pack (h : mag < 2 ^ (fmt.width - 1)) {i : Nat} (hi : i < fmt.width) :
    (pack fmt neg mag).getLsbD i = if i = fmt.width - 1 then neg else mag.testBit i := by
  have htop : mag.testBit (fmt.width - 1) = false := Nat.testBit_lt_two_pow h
  rw [pack, BitVec.getLsbD_ofNat, decide_eq_true hi, Bool.true_and]
  by_cases he : i = fmt.width - 1
  · subst he
    cases neg
    · simpa using htop
    · simp [Nat.add_comm mag, Nat.testBit_two_pow_add_eq, htop]
  · cases neg
    · simp [he]
    · have : i < fmt.width - 1 := by omega
      simp [he, Nat.add_comm mag, Nat.testBit_two_pow_add_gt this]

theorem signOf_pack (h : mag < 2 ^ (fmt.width - 1)) : signOf (pack fmt neg mag) = neg := by
  have : 0 < fmt.width := by rw [width_eq]; omega
  rw [signOf, getLsbD_pack h (by omega), if_pos rfl]

theorem magnitude_pack (h : mag < 2 ^ (fmt.width - 1)) : magnitude (pack fmt neg mag) = mag := by
  apply Nat.eq_of_testBit_eq
  intro i
  by_cases hi : i < fmt.width - 1
  · rw [testBit_magnitude _ hi, getLsbD_pack h (by omega), if_neg (by omega)]
  · have le : 2 ^ (fmt.width - 1) ≤ 2 ^ i := Nat.pow_le_pow_right (by decide) (by omega)
    rw [Nat.testBit_lt_two_pow (h.trans_le le), Nat.testBit_lt_two_pow ((magnitude_lt _).trans_le le)]

theorem getLsbD_withSign (v : BitVec fmt.width) {i : Nat} (hi : i < fmt.width) :
    (withSign neg v).getLsbD i = if i = fmt.width - 1 then neg else v.getLsbD i := by
  rw [withSign, getLsbD_pack (magnitude_lt v) hi]
  split
  · rfl
  · exact testBit_magnitude v (by omega)

theorem withSign_signOf (v : BitVec fmt.width) : withSign (signOf v) v = v := by
  apply BitVec.eq_of_getLsbD_eq
  intro i hi
  rw [getLsbD_withSign v hi]
  split
  · next h => rw [h, signOf]
  · rfl

/-- Sign and magnitude determine the pattern. -/
theorem eq_of_signOf_magnitude (hs : signOf a = signOf b) (hm : magnitude a = magnitude b) : a = b := by
  rw [← withSign_signOf a, ← withSign_signOf b, withSign, withSign, hs, hm]

/-! ### Classes (R403, R426) -/

/-- The six kinds of pattern, by the fields. -/
theorem fclass_eq (a : BitVec fmt.width) : fclass a =
    if biasedExp a = 2 ^ fmt.expBits - 1 then
      if fraction a = 0 then (if signOf a then 0x001#32 else 0x080#32)
      else if a.getLsbD (fmt.fracBits - 1) then 0x200#32 else 0x100#32
    else if biasedExp a = 0 then
      if fraction a = 0 then (if signOf a then 0x008#32 else 0x010#32)
      else (if signOf a then 0x004#32 else 0x020#32)
    else (if signOf a then 0x002#32 else 0x040#32) := by
  unfold fclass classBit unpack
  by_cases htop : biasedExp a = 2 ^ fmt.expBits - 1
  · by_cases hT : fraction a = 0
    · cases signOf a <;> simp [if_pos htop, hT]
    · cases a.getLsbD (fmt.fracBits - 1) <;> simp [if_pos htop, hT]
  · by_cases hE : biasedExp a = 0
    · by_cases hT : fraction a = 0 <;> cases signOf a <;> simp [if_neg htop, if_pos hE, hT]
    · cases signOf a <;> simp [if_neg htop, if_neg hE]

/-- Settles O43: FCLASS is read off the fields, and a sign is injected into the top bit only (`getLsbD_withSign`). -/
theorem classesAndSigns : Obligations.ClassesAndSigns := by
  refine ⟨fun fmt a => ?_, fun fmt a b i hi => ⟨?_, ?_, ?_⟩⟩
  · exact fclass_eq a
  · exact getLsbD_withSign a hi
  · exact getLsbD_withSign a hi
  · exact getLsbD_withSign a hi

/-! ### Magnitudes and values (R403) -/

/-- The exponent of the least subnormal, the distance of the least magnitudes. -/
def leastExp (fmt : Fmt) : Int := fmt.emin - fmt.fracBits

/-- How many times the distance to the next magnitude has doubled, from the subnormals up to this magnitude. -/
def binade (fmt : Fmt) (mag : Nat) : Nat := mag / 2 ^ fmt.fracBits - 1

/-- The significand of a magnitude, the leading one of a normal number included. -/
def significand (fmt : Fmt) (mag : Nat) : Nat := mag - binade fmt mag * 2 ^ fmt.fracBits

/-- The value of a finite magnitude (R403). -/
def magnitudeValue (fmt : Fmt) (mag : Nat) : ℚ := significand fmt mag * 2 ^ (leastExp fmt + binade fmt mag)

theorem binade_mul_add_significand (fmt : Fmt) (mag : Nat) :
    binade fmt mag * 2 ^ fmt.fracBits + significand fmt mag = mag := by
  have h1 : binade fmt mag * 2 ^ fmt.fracBits ≤ mag / 2 ^ fmt.fracBits * 2 ^ fmt.fracBits :=
    Nat.mul_le_mul_right _ (Nat.sub_le _ _)
  have h2 := Nat.div_mul_le_self mag (2 ^ fmt.fracBits)
  unfold significand
  omega

/-- A significand has at most p bits, and its leading one where the distance has doubled. -/
theorem significand_bounds (fmt : Fmt) (mag : Nat) : significand fmt mag < 2 ^ fmt.precision ∧
    (binade fmt mag = 0 ∨ 2 ^ fmt.fracBits ≤ significand fmt mag) := by
  have hpos : 0 < 2 ^ fmt.fracBits := by positivity
  have h := binade_mul_add_significand fmt mag
  have hmod := Nat.mod_lt mag hpos
  have hdiv := Nat.div_add_mod' mag (2 ^ fmt.fracBits)
  rw [Fmt.precision, pow_succ]
  by_cases h0 : mag / 2 ^ fmt.fracBits = 0
  · have hb : binade fmt mag = 0 := by rw [binade, h0]
    rw [hb] at h
    rw [h0] at hdiv
    omega
  · obtain ⟨k, hk⟩ := Nat.exists_eq_succ_of_ne_zero h0
    have hb : binade fmt mag = k := by rw [binade, hk]; rfl
    rw [hb] at h
    rw [hk, Nat.succ_mul] at hdiv
    omega

/-- The value of a magnitude by any way to write it as a number of distances of the least magnitudes, doubled `k` times;
the significand may have been carried to the next power of two. -/
theorem magnitudeValue_mul_add {k n : Nat} (hn : n ≤ 2 ^ fmt.precision) (hk : k = 0 ∨ 2 ^ fmt.fracBits ≤ n) :
    magnitudeValue fmt (k * 2 ^ fmt.fracBits + n) = n * 2 ^ (leastExp fmt + k) := by
  have hpos : 0 < 2 ^ fmt.fracBits := by positivity
  have hdiv : (k * 2 ^ fmt.fracBits + n) / 2 ^ fmt.fracBits = k + n / 2 ^ fmt.fracBits := by
    rw [Nat.add_comm, Nat.add_mul_div_right _ _ hpos, Nat.add_comm]
  rw [Fmt.precision, pow_succ] at hn
  rcases Nat.lt_or_eq_of_le hn with hn | rfl
  · have hb : binade fmt (k * 2 ^ fmt.fracBits + n) = k := by
      have : n / 2 ^ fmt.fracBits < 2 := Nat.div_lt_of_lt_mul hn
      rw [binade, hdiv]
      rcases hk with rfl | hk
      · omega
      · have := Nat.div_pos hk hpos
        omega
    rw [magnitudeValue, significand, hb, Nat.add_sub_cancel_left]
  · have hb : binade fmt (k * 2 ^ fmt.fracBits + 2 ^ fmt.fracBits * 2) = k + 1 := by
      rw [binade, hdiv, Nat.mul_div_cancel_left _ hpos]; rfl
    have hs : significand fmt (k * 2 ^ fmt.fracBits + 2 ^ fmt.fracBits * 2) = 2 ^ fmt.fracBits := by
      rw [significand, hb, Nat.succ_mul]; omega
    rw [magnitudeValue, hs, hb]
    push_cast
    rw [← add_assoc, zpow_add_one₀ (by norm_num)]
    ring

@[simp] theorem magnitudeValue_zero (fmt : Fmt) : magnitudeValue fmt 0 = 0 := by
  simp [magnitudeValue, significand]

/-- Greater magnitudes have greater values. -/
theorem magnitudeValue_strictMono (fmt : Fmt) : StrictMono (magnitudeValue fmt) := by
  apply strictMono_nat_of_lt_succ
  intro mag
  obtain ⟨hlt, hb⟩ := significand_bounds fmt mag
  have hmag := binade_mul_add_significand fmt mag
  have hval := magnitudeValue_mul_add (fmt := fmt) (k := binade fmt mag) (n := significand fmt mag + 1) (by omega)
    (by omega)
  rw [← Nat.add_assoc, hmag] at hval
  rw [hval, magnitudeValue]
  have : (0 : ℚ) < 2 ^ (leastExp fmt + binade fmt mag) := by positivity
  push_cast
  linarith

theorem magnitudeValue_nonneg (fmt : Fmt) (mag : Nat) : 0 ≤ magnitudeValue fmt mag := by
  unfold magnitudeValue; positivity

/-! ### Unpacking by the magnitude (R403) -/

theorem biasedExp_eq_top : biasedExp v = 2 ^ fmt.expBits - 1 ↔ fmt.infMagnitude ≤ magnitude v := by
  have hpos : 0 < 2 ^ fmt.fracBits := by positivity
  have hlt : magnitude v / 2 ^ fmt.fracBits < 2 ^ fmt.expBits :=
    Nat.div_lt_of_lt_mul (two_pow_width_sub_one fmt ▸ magnitude_lt v)
  rw [biasedExp_eq, Fmt.infMagnitude, ← Nat.le_div_iff_mul_le hpos]
  omega

theorem fraction_of_top (h : fmt.infMagnitude ≤ magnitude v) : magnitude v = fmt.infMagnitude + fraction v := by
  have := Nat.div_add_mod' (magnitude v) (2 ^ fmt.fracBits)
  rw [← biasedExp_eq, biasedExp_eq_top.2 h, ← fraction_eq] at this
  exact this.symm

theorem unpack_of_lt (h : magnitude v < fmt.infMagnitude) :
    unpack v = .fin (signOf v) (significand fmt (magnitude v)) (leastExp fmt + binade fmt (magnitude v)) := by
  have htop : biasedExp v ≠ 2 ^ fmt.expBits - 1 := fun h' => absurd (biasedExp_eq_top.1 h') (by omega)
  have hmag := Nat.div_add_mod' (magnitude v) (2 ^ fmt.fracBits)
  rw [← biasedExp_eq, ← fraction_eq] at hmag
  rw [unpack, if_neg htop, significand, binade, ← biasedExp_eq, leastExp]
  by_cases h0 : biasedExp v = 0
  · rw [if_pos h0, ← hmag, h0]
    simp
  · obtain ⟨k, hk⟩ := Nat.exists_eq_succ_of_ne_zero h0
    rw [if_neg h0, ← hmag, hk, Nat.succ_mul]
    congr 1
    · rw [Nat.succ_sub_one, Nat.add_assoc, Nat.add_sub_cancel_left]
    · simp only [Nat.succ_sub_one, Fmt.emin]; push_cast; ring

theorem unpack_of_eq (h : magnitude v = fmt.infMagnitude) : unpack v = .inf (signOf v) := by
  have := fraction_of_top h.ge
  rw [unpack, if_pos (biasedExp_eq_top.2 h.ge), if_pos (by omega)]

theorem unpack_of_gt (h : fmt.infMagnitude < magnitude v) : unpack v = .nan (!v.getLsbD (fmt.fracBits - 1)) := by
  have := fraction_of_top h.le
  rw [unpack, if_pos (biasedExp_eq_top.2 h.le), if_neg (by omega)]

/-- The value of a finite pattern is its magnitude's, with its sign. -/
theorem finiteValue_of_lt (h : magnitude v < fmt.infMagnitude) :
    finiteValue v = some ((if signOf v then -1 else 1) * magnitudeValue fmt (magnitude v)) := by
  simp only [finiteValue, unpack_of_lt h, magnitudeValue, mul_assoc]

theorem finiteValue_of_ge (h : fmt.infMagnitude ≤ magnitude v) : finiteValue v = none := by
  rcases Nat.lt_or_eq_of_le h with h | h
  · rw [finiteValue, unpack_of_gt h]
  · rw [finiteValue, unpack_of_eq h.symm]

theorem magnitude_lt_of_finiteValue {x : ℚ} (h : finiteValue v = some x) : magnitude v < fmt.infMagnitude := by
  by_contra hge
  rw [finiteValue_of_ge (not_lt.1 hge)] at h
  cases h

end Sys2Proof.Machine
end

section
/-! SUPPORT. Comparisons, minimum and maximum: the signed magnitudes are in the order of the numbers and infinities they
stand for (R422, R424, R425). -/
namespace Sys2Proof.Machine

variable {fmt : Fmt} {a b v : BitVec fmt.width}

/-- The number of a signed magnitude. -/
def signedValue (fmt : Fmt) (k : Int) : ℚ :=
  if k < 0 then -magnitudeValue fmt k.natAbs else magnitudeValue fmt k.natAbs

theorem signedValue_strictMono (fmt : Fmt) : StrictMono (signedValue fmt) := by
  intro j k hjk
  have mono : ∀ {m n : Nat}, magnitudeValue fmt m < magnitudeValue fmt n ↔ m < n :=
    (magnitudeValue_strictMono fmt).lt_iff_lt
  unfold signedValue
  by_cases hj : j < 0 <;> by_cases hk : k < 0
  · rw [if_pos hj, if_pos hk, neg_lt_neg_iff, mono]; omega
  · have hpos : magnitudeValue fmt 0 < magnitudeValue fmt j.natAbs := mono.2 (by omega)
    have := magnitudeValue_nonneg fmt k.natAbs
    rw [magnitudeValue_zero] at hpos
    rw [if_pos hj, if_neg hk]
    linarith
  · omega
  · rw [if_neg hj, if_neg hk, mono]; omega

theorem signedValue_signed (neg : Bool) (mag : Nat) :
    signedValue fmt (signed neg mag) = (if neg then -1 else 1) * magnitudeValue fmt mag := by
  cases neg
  · simp [signedValue, signed]
  · rcases Nat.eq_zero_or_pos mag with rfl | h
    · simp [signedValue, signed]
    · simp [signedValue, signed, h]

/-- The number or infinity of a signed magnitude that is no NaN's. -/
def keyValue (fmt : Fmt) (k : Int) : WithBot (WithTop ℚ) :=
  if k = fmt.infMagnitude then ((⊤ : WithTop ℚ) : WithBot (WithTop ℚ))
  else if k = -fmt.infMagnitude then ⊥ else ((signedValue fmt k : WithTop ℚ) : WithBot (WithTop ℚ))

theorem keyValue_strictMonoOn (fmt : Fmt) :
    StrictMonoOn (keyValue fmt) (Set.Icc (-fmt.infMagnitude) fmt.infMagnitude) := by
  rintro j ⟨hj, -⟩ k ⟨-, hk⟩ hjk
  have hpos := infMagnitude_pos fmt
  have hj' : j ≠ fmt.infMagnitude := by omega
  have hk' : k ≠ -fmt.infMagnitude := by omega
  unfold keyValue
  rw [if_neg hj', if_neg hk']
  by_cases h1 : j = -fmt.infMagnitude <;> by_cases h2 : k = fmt.infMagnitude
  · simp [h1, h2]
  · simp [h1, h2]
  · rw [if_neg h1, if_pos h2]
    exact WithBot.coe_lt_coe.2 (WithTop.coe_lt_top _)
  · rw [if_neg h1, if_neg h2]
    exact WithBot.coe_lt_coe.2 (WithTop.coe_lt_coe.2 (signedValue_strictMono fmt hjk))

/-- A pattern that is no NaN is ordered by its signed magnitude. -/
theorem orderValue_of_le (h : magnitude v ≤ fmt.infMagnitude) : orderValue v = some (keyValue fmt (numKey v)) := by
  have hpos := infMagnitude_pos fmt
  rcases Nat.lt_or_eq_of_le h with h | h
  · have h1 : numKey v ≠ fmt.infMagnitude := by unfold numKey signed; split <;> omega
    have h2 : numKey v ≠ -fmt.infMagnitude := by unfold numKey signed; split <;> omega
    rw [keyValue, if_neg h1, if_neg h2, numKey, signedValue_signed]
    simp only [orderValue, unpack_of_lt h, magnitudeValue, mul_assoc]
  · have hne : -(fmt.infMagnitude : Int) ≠ fmt.infMagnitude := by omega
    simp only [orderValue, unpack_of_eq h, numKey, h, keyValue, signed]
    cases signOf v
    · simp
    · simp [hne]

theorem isNaN_unpack : (unpack v).isNaN = decide (fmt.infMagnitude < magnitude v) := by
  rcases Nat.lt_trichotomy (magnitude v) fmt.infMagnitude with h | h | h
  · simp [unpack_of_lt h, Num.isNaN, h.le]
  · simp [unpack_of_eq h, Num.isNaN, h]
  · simp [unpack_of_gt h, Num.isNaN, h]

theorem isSNaN_of_not_isNaN {x : Num} (h : x.isNaN = false) : x.isSNaN = false := by
  cases x
  · cases h
  · rfl
  · rfl

/-- What has no place in the order is a NaN. -/
theorem isNaN_of_orderValue_none (h : orderValue v = none) : (unpack v).isNaN = true := by
  by_contra hn
  rw [isNaN_unpack, decide_eq_true_iff, not_lt] at hn
  rw [orderValue_of_le hn] at h
  cases h

/-- What has one is no NaN, and its place is that of its signed magnitude. -/
theorem of_orderValue_some {x : WithBot (WithTop ℚ)} (h : orderValue v = some x) :
    (unpack v).isNaN = false ∧ magnitude v ≤ fmt.infMagnitude ∧ x = keyValue fmt (numKey v) := by
  have hle : magnitude v ≤ fmt.infMagnitude := by
    by_contra hgt
    rw [orderValue, unpack_of_gt (not_le.1 hgt)] at h
    cases h
  refine ⟨by simpa [isNaN_unpack] using hle, hle, ?_⟩
  rw [orderValue_of_le hle] at h
  exact (Option.some.inj h).symm

theorem numKey_mem (h : magnitude v ≤ fmt.infMagnitude) :
    numKey v ∈ Set.Icc (-(fmt.infMagnitude : Int)) fmt.infMagnitude := by
  unfold numKey signed
  constructor <;> split <;> omega

/-! ### The operations beside a NaN -/

/-- A comparison with a NaN is false (R424, R425). -/
theorem compare_nan (h : (unpack a).isNaN = true ∨ (unpack b).isNaN = true) :
    feq a b = (false, if (unpack a).isSNaN || (unpack b).isSNaN then flagNV else noFlags) ∧
      flt a b = (false, flagNV) ∧ fle a b = (false, flagNV) := by
  have hor : ((unpack a).isNaN || (unpack b).isNaN) = true := by simpa using h
  refine ⟨?_, by rw [flt, if_pos hor], by rw [fle, if_pos hor]⟩
  rcases h with h | h <;> simp [feq, h, flagIf]

/-- Two numbers compare as their signed magnitudes, with no flag (R424, R425). -/
theorem compare_numbers (ha : (unpack a).isNaN = false) (hb : (unpack b).isNaN = false) :
    feq a b = (decide (numKey a = numKey b), noFlags) ∧ flt a b = (decide (numKey a < numKey b), noFlags) ∧
      fle a b = (decide (numKey a ≤ numKey b), noFlags) := by
  refine ⟨?_, ?_, ?_⟩
  · simp [feq, ha, hb, isSNaN_of_not_isNaN, flagIf, Bool.beq_eq_decide_eq]
  · simp [flt, ha, hb]
  · simp [fle, ha, hb]

/-- Two numbers: the choice, and no flag (R422). -/
theorem minMax_number (pick : BitVec fmt.width → BitVec fmt.width → BitVec fmt.width) (ha : (unpack a).isNaN = false)
    (hb : (unpack b).isNaN = false) : minMax pick a b = (pick a b, noFlags) := by
  simp [minMax, ha, hb, isSNaN_of_not_isNaN, flagIf]

/-- A NaN first: the other operand, or the canonical NaN beside another NaN (R422). -/
theorem minMax_nan_left (pick : BitVec fmt.width → BitVec fmt.width → BitVec fmt.width) (ha : (unpack a).isNaN = true) :
    minMax pick a b = (if (unpack b).isNaN then canonicalNaN fmt else b,
      if (unpack a).isSNaN || (unpack b).isSNaN then flagNV else noFlags) := by
  simp [minMax, ha, flagIf]

/-- A NaN second beside a number: the number (R422). -/
theorem minMax_nan_right (pick : BitVec fmt.width → BitVec fmt.width → BitVec fmt.width)
    (ha : (unpack a).isNaN = false) (hb : (unpack b).isNaN = true) :
    minMax pick a b = (a, if (unpack a).isSNaN || (unpack b).isSNaN then flagNV else noFlags) := by
  simp [minMax, ha, hb, flagIf]

/-! ### The order of the keys -/

/-- The order of FMIN and FMAX refines that of the comparisons (R422). -/
theorem totalKey_lt_of_numKey_lt (h : numKey a < numKey b) : totalKey a < totalKey b := by
  cases ha : signOf a <;> cases hb : signOf b <;> simp [numKey, signed, totalKey, ha, hb] at h ⊢ <;> omega

/-- Among equal numbers a negative one comes first, and it is last only beside itself (R422). -/
theorem totalKey_of_negative (h : numKey a = numKey b) (ha : signOf a = true) :
    totalKey a ≤ totalKey b ∧ (totalKey b ≤ totalKey a → a = b) := by
  cases hb : signOf b
  · simp only [numKey, signed, ha, hb, totalKey] at h ⊢
    simp; omega
  · have hm : magnitude a = magnitude b := by simpa [numKey, signed, ha, hb] using h
    have := eq_of_signOf_magnitude (ha.trans hb.symm) hm
    simp [this]

/-- Two numbers in order: the first is the lesser (R422). -/
theorem fmin_fmax_of_le (ha : (unpack a).isNaN = false) (hb : (unpack b).isNaN = false)
    (h : totalKey a ≤ totalKey b) : fmin a b = (a, noFlags) ∧ fmax a b = (b, noFlags) := by
  rw [fmin, fmax, minMax_number _ ha hb, minMax_number _ ha hb, if_pos h, if_pos h]
  exact ⟨rfl, rfl⟩

/-- Two numbers out of order: the second is the lesser (R422). -/
theorem fmin_fmax_of_lt (ha : (unpack a).isNaN = false) (hb : (unpack b).isNaN = false)
    (h : totalKey b < totalKey a) : fmin a b = (b, noFlags) ∧ fmax a b = (a, noFlags) := by
  rw [fmin, fmax, minMax_number _ ha hb, minMax_number _ ha hb, if_neg (not_le.2 h), if_neg (not_le.2 h)]
  exact ⟨rfl, rfl⟩

/-- Settles O42, by the order of the signed magnitudes (`keyValue_strictMonoOn`). -/
theorem fpOrder : Obligations.FpOrder := by
  intro fmt a b invalid
  refine ⟨fun x y hx hy => ?_, fun h => ?_, fun hx hy => ?_, fun y hx hy => ?_, fun x hx hy => ?_⟩
  · obtain ⟨ha, hma, rfl⟩ := of_orderValue_some hx
    obtain ⟨hb, hmb, rfl⟩ := of_orderValue_some hy
    have hlt := (keyValue_strictMonoOn fmt).lt_iff_lt (numKey_mem hma) (numKey_mem hmb)
    have hgt := (keyValue_strictMonoOn fmt).lt_iff_lt (numKey_mem hmb) (numKey_mem hma)
    have hle := (keyValue_strictMonoOn fmt).le_iff_le (numKey_mem hma) (numKey_mem hmb)
    have heq := (keyValue_strictMonoOn fmt).eq_iff_eq (numKey_mem hma) (numKey_mem hmb)
    simp only [hlt, hgt, hle, heq]
    obtain ⟨hfeq, hflt, hfle⟩ := compare_numbers ha hb
    refine ⟨hfeq, hflt, hfle, fun h => ?_, fun h => ?_, fun h hs => ?_, fun h hs => ?_, fun h hsa hsb => ?_⟩
    · exact fmin_fmax_of_le ha hb (totalKey_lt_of_numKey_lt h).le
    · exact fmin_fmax_of_lt ha hb (totalKey_lt_of_numKey_lt h)
    · exact fmin_fmax_of_le ha hb (totalKey_of_negative h hs).1
    · obtain ⟨hle, hab⟩ := totalKey_of_negative h.symm hs
      rcases hle.lt_or_eq with hlt | heq
      · exact fmin_fmax_of_lt ha hb hlt
      · obtain rfl := hab heq.ge
        exact fmin_fmax_of_le ha ha le_rfl
    · have hm : magnitude a = magnitude b := by simpa [numKey, signed, hsa, hsb] using h
      obtain rfl := eq_of_signOf_magnitude (hsa.trans hsb.symm) hm
      exact ⟨rfl, fmin_fmax_of_le ha ha le_rfl⟩
  · exact compare_nan (h.imp isNaN_of_orderValue_none isNaN_of_orderValue_none)
  · have ha := isNaN_of_orderValue_none hx
    have hb := isNaN_of_orderValue_none hy
    simp [fmin, fmax, minMax_nan_left _ ha, hb, invalid]
  · have ha := isNaN_of_orderValue_none hx
    have hb := (of_orderValue_some hy).1
    simp [fmin, fmax, minMax_nan_left _ ha, hb, invalid]
  · have ha := (of_orderValue_some hx).1
    have hb := isNaN_of_orderValue_none hy
    simp [fmin, fmax, minMax_nan_right _ ha hb, invalid]

end Sys2Proof.Machine
end

section
/-! SUPPORT. Rounding to an integer: what `quantizeAt` gives, as a property of the real it is given (R408, R428,
R429). -/
namespace Sys2Proof.Machine

variable {K : Type} [Field K] [LinearOrder K] [IsStrictOrderedRing K]

/-! ### What is lost between two neighbours -/

/-- `t` is a rest that `sticky` stands for: part of a unit, nothing exactly when `sticky` is false. -/
def IsRest (sticky : Bool) (t : K) : Prop := 0 ≤ t ∧ t < 1 ∧ (sticky = false ↔ t = 0)

theorem isRest_false : IsRest false (0 : K) := ⟨le_rfl, zero_lt_one, by simp⟩

/-- Where a fraction `f` lies, as a `Tail` says it. -/
def Tail.Holds (f : K) : Tail → Prop
  | .exact => f = 0
  | .below => 0 < f ∧ f < 1 / 2
  | .half => f = 1 / 2
  | .above => 1 / 2 < f ∧ f < 1

/-- `tailOf` says where the number lies above the lower neighbour; a rest that is not zero needs a shift to be seen. -/
theorem tailOf_holds {mant s : Nat} {sticky : Bool} {t : K} (ht : IsRest sticky t) (hs : sticky = true → s ≠ 0) :
    ∃ f : K, (mant + t) / 2 ^ s = (mant / 2 ^ s : Nat) + f ∧ (tailOf mant sticky s).Holds f := by
  obtain ⟨h0, h1, hst⟩ := ht
  refine ⟨((mant % 2 ^ s : Nat) + t) / 2 ^ s, ?_, ?_⟩
  · have hdiv : (mant : K) = (mant / 2 ^ s : Nat) * 2 ^ s + (mant % 2 ^ s : Nat) := by
      exact_mod_cast (Nat.div_add_mod' mant (2 ^ s)).symm
    have hpos : (2 : K) ^ s ≠ 0 := by positivity
    rw [eq_comm, eq_div_iff hpos, add_mul, div_mul_cancel₀ _ hpos, ← add_assoc, ← hdiv]
  · rcases Nat.eq_zero_or_pos s with rfl | hpos
    · obtain rfl : sticky = false := by simpa using mt hs (by simp)
      simp [tailOf, Tail.Holds, hst.1 rfl, Nat.mod_one]
    · obtain ⟨k, rfl⟩ := Nat.exists_eq_succ_of_ne_zero hpos.ne'
      have hlt := Nat.mod_lt mant (show 0 < 2 ^ (k + 1) by positivity)
      have hk : (0 : K) < 2 ^ k := by positivity
      unfold tailOf
      simp only [Nat.succ_eq_add_one, Nat.add_sub_cancel, Nat.add_one_ne_zero, if_false]
      generalize mant % 2 ^ (k + 1) = r at hlt ⊢
      have hlt' : (r : K) + 1 ≤ 2 * 2 ^ k := by rw [← pow_succ']; exact_mod_cast hlt
      rw [pow_succ']
      have bound : ∀ {c : K}, (r + t) / (2 * 2 ^ k) < c ↔ r + t < c * (2 * 2 ^ k) := div_lt_iff₀ (by positivity)
      have bound' : ∀ {c : K}, c < (r + t) / (2 * 2 ^ k) ↔ c * (2 * 2 ^ k) < r + t := lt_div_iff₀ (by positivity)
      split_ifs with hexact hbelow hhalf
      · obtain ⟨rfl, hf⟩ := hexact
        simp [Tail.Holds, hst.1 hf]
      · have hr : (r : K) + 1 ≤ 2 ^ k := by exact_mod_cast hbelow
        refine ⟨bound'.2 ?_, bound.2 (by linarith)⟩
        have hr0 : (0 : K) ≤ r := Nat.cast_nonneg r
        rw [zero_mul]
        by_contra hle
        have hr1 : (r : K) = 0 := by linarith
        exact hexact ⟨by exact_mod_cast hr1, hst.2 (by linarith)⟩
      · obtain ⟨rfl, hf⟩ := hhalf
        rw [hst.1 hf]
        simp only [Tail.Holds]
        push_cast
        field_simp
        simp
      · have hr : (2 : K) ^ k ≤ r := by exact_mod_cast not_lt.1 hbelow
        refine ⟨bound'.2 ?_, bound.2 (by linarith)⟩
        by_contra hle
        have hr1 : (r : K) = 2 ^ k := by linarith
        exact hhalf ⟨by exact_mod_cast hr1, hst.2 (by linarith)⟩

/-! ### Rounding a magnitude to a natural number -/

/-- `n` is the magnitude `w` of a number of the sign `neg`, rounded to an integer by the mode (R408, R428). -/
def RoundsNat (rm : RoundingMode) (neg : Bool) (w : K) (n : Nat) : Prop :=
  match rm with
  | .rne => n ≤ w + 1 / 2 ∧ w ≤ n + 1 / 2 ∧ (n = w + 1 / 2 ∨ w = n + 1 / 2 → n % 2 = 0)
  | .rmm => n ≤ w + 1 / 2 ∧ w < n + 1 / 2
  | .rtz => n ≤ w ∧ w < n + 1
  | .rdn => if neg then w ≤ n ∧ n < w + 1 else n ≤ w ∧ w < n + 1
  | .rup => if neg then n ≤ w ∧ w < n + 1 else w ≤ n ∧ n < w + 1

theorem Tail.Holds.bounds {t : Tail} {f : K} (h : t.Holds f) : 0 ≤ f ∧ f < 1 ∧ (t = .exact ↔ f = 0) := by
  cases t with
  | exact => obtain rfl : f = 0 := h; norm_num
  | below =>
    obtain ⟨h0, h1⟩ := h
    exact ⟨h0.le, by linarith, by simp [h0.ne']⟩
  | half => obtain rfl : f = 1 / 2 := h; exact ⟨by norm_num, by norm_num, by simp⟩
  | above =>
    obtain ⟨h0, h1⟩ := h
    have : f ≠ 0 := by intro hf; linarith
    exact ⟨by linarith, h1, by simp [this]⟩

/-- The integer that `roundsUp` chooses between the neighbours `q` and `q + 1`. -/
def chosen (rm : RoundingMode) (neg : Bool) (q : Nat) (t : Tail) : Nat :=
  if roundsUp rm neg (q % 2 == 1) t then q + 1 else q

/-- An integer nearer than a half is the rounded one in both nearest modes. -/
theorem RoundsNat.of_near {rm : RoundingMode} {neg : Bool} {w : K} {n : Nat} (hrm : rm = .rne ∨ rm = .rmm)
    (h1 : (n : K) < w + 1 / 2) (h2 : w < n + 1 / 2) : RoundsNat rm neg w n := by
  rcases hrm with rfl | rfl
  · exact ⟨h1.le, h2.le, fun h => by rcases h with h | h <;> linarith⟩
  · exact ⟨h1.le, h2⟩

theorem roundsNat_chosen_nearest {rm : RoundingMode} (hrm : rm = .rne ∨ rm = .rmm) (neg : Bool) (q : Nat) {f : K}
    {t : Tail} (h : t.Holds f) : RoundsNat rm neg (q + f) (chosen rm neg q t) := by
  cases t with
  | exact =>
    obtain rfl : f = 0 := h
    have hc : chosen rm neg q .exact = q := by rcases hrm with rfl | rfl <;> rfl
    rw [hc]
    exact .of_near hrm (by linarith) (by linarith)
  | below =>
    obtain ⟨h0, hf⟩ := h
    have hc : chosen rm neg q .below = q := by rcases hrm with rfl | rfl <;> rfl
    rw [hc]
    exact .of_near hrm (by linarith) (by linarith)
  | above =>
    obtain ⟨hf, h1⟩ := h
    have hc : chosen rm neg q .above = q + 1 := by rcases hrm with rfl | rfl <;> rfl
    rw [hc]
    exact .of_near hrm (by push_cast; linarith) (by push_cast; linarith)
  | half =>
    obtain rfl : f = 1 / 2 := h
    rcases hrm with rfl | rfl
    · rcases Nat.mod_two_eq_zero_or_one q with hq | hq
      · have hc : chosen .rne neg q .half = q := by simp [chosen, roundsUp, hq]
        rw [hc]
        exact ⟨by linarith, le_rfl, fun _ => hq⟩
      · have hc : chosen .rne neg q .half = q + 1 := by simp [chosen, roundsUp, hq]
        rw [hc]
        exact ⟨by push_cast; linarith, by push_cast; linarith, fun _ => by omega⟩
    · show ((q + 1 : Nat) : K) ≤ q + 1 / 2 + 1 / 2 ∧ (q : K) + 1 / 2 < (q + 1 : Nat) + 1 / 2
      push_cast
      exact ⟨by linarith, by linarith⟩

/-- The chosen integer is the rounded one. -/
theorem roundsNat_chosen (rm : RoundingMode) (neg : Bool) (q : Nat) {f : K} {t : Tail} (h : t.Holds f) :
    RoundsNat rm neg (q + f) (chosen rm neg q t) := by
  obtain ⟨h0, h1, hexact⟩ := h.bounds
  have floor : (q : K) ≤ q + f ∧ (q : K) + f < q + 1 := ⟨by linarith, by linarith⟩
  have ceil : q + f ≤ ((if t != .exact then q + 1 else q : Nat) : K) ∧
      ((if t != .exact then q + 1 else q : Nat) : K) < q + f + 1 := by
    by_cases ht : t = .exact
    · obtain rfl := hexact.1 ht
      simp [ht]
    · have : 0 < f := lt_of_le_of_ne h0 fun hf => ht (hexact.2 hf.symm)
      simp only [ht, bne_iff_ne, ne_eq, not_false_iff, if_true]
      push_cast
      exact ⟨by linarith, by linarith⟩
  match rm, neg with
  | .rne, _ => exact roundsNat_chosen_nearest (.inl rfl) _ q h
  | .rmm, _ => exact roundsNat_chosen_nearest (.inr rfl) _ q h
  | .rtz, _ | .rdn, false | .rup, true => exact floor
  | .rdn, true | .rup, false => exact ceil

/-- The chosen integer is the number itself exactly when nothing is lost. -/
theorem chosen_eq_iff (rm : RoundingMode) (neg : Bool) (q : Nat) {f : K} {t : Tail} (h : t.Holds f) :
    (chosen rm neg q t : K) = q + f ↔ t = .exact := by
  obtain ⟨h0, h1, hexact⟩ := h.bounds
  constructor
  · intro he
    unfold chosen at he
    split at he
    · push_cast at he; linarith
    · exact hexact.2 (by linarith)
  · rintro rfl
    have hc : chosen rm neg q .exact = q := by cases rm <;> simp [chosen, roundsUp]
    rw [hc, hexact.1 rfl, add_zero]

/-- `quantizeAt` rounds to a multiple of the quantum, in units of it, and says whether that is inexact. A rest must lie
below the quantum. -/
theorem quantizeAt_rounds (rm : RoundingMode) (neg : Bool) {mant : Nat} {exp quantum : Int} {sticky : Bool} {t : K}
    (ht : IsRest sticky t) (hs : sticky = true → exp < quantum) :
    let w : K := (mant + t) * 2 ^ (exp - quantum)
    let r := quantizeAt rm neg mant exp sticky quantum
    RoundsNat rm neg w r.1 ∧ (r.2 = true ↔ (r.1 : K) ≠ w) := by
  intro w r
  have hw : w = ((mant * 2 ^ (exp - quantum).toNat : Nat) + t) / 2 ^ (quantum - exp).toNat := by
    rcases le_total quantum exp with hle | hle
    · obtain rfl : sticky = false := by simpa using mt hs (by omega)
      obtain ⟨k, hk⟩ := Int.eq_ofNat_of_zero_le (sub_nonneg.2 hle)
      have h0 : (quantum - exp).toNat = 0 := by omega
      simp [w, h0, hk, ht.2.2.1 rfl]
    · obtain ⟨k, hk⟩ := Int.eq_ofNat_of_zero_le (sub_nonneg.2 hle)
      have h0 : (exp - quantum).toNat = 0 := by omega
      have hneg : exp - quantum = -(k : Int) := by omega
      simp only [w, h0, hk, pow_zero, mul_one]
      rw [hneg, zpow_neg, zpow_natCast, Int.toNat_natCast, div_eq_mul_inv]
  obtain ⟨f, hf, hh⟩ := tailOf_holds (mant := mant * 2 ^ (exp - quantum).toNat) (s := (quantum - exp).toNat) ht
    (fun h => by have := hs h; omega)
  have hr : r = (chosen rm neg (mant * 2 ^ (exp - quantum).toNat / 2 ^ (quantum - exp).toNat)
      (tailOf (mant * 2 ^ (exp - quantum).toNat) sticky (quantum - exp).toNat),
      tailOf (mant * 2 ^ (exp - quantum).toNat) sticky (quantum - exp).toNat != .exact) := rfl
  rw [hw, hf, hr]
  exact ⟨roundsNat_chosen rm neg _ hh, by simp [chosen_eq_iff rm neg _ hh]⟩

/-! ### Signed numbers (R428) -/

/-- The distance of a rounded number in a nearest mode, and what holds at a half. -/
theorem RoundsNat.near {rm : RoundingMode} {neg : Bool} {w : K} {n : Nat} (hrm : rm = .rne ∨ rm = .rmm)
    (h : RoundsNat rm neg w n) : |(n : K) - w| ≤ 1 / 2 ∧
      (|(n : K) - w| = 1 / 2 → (rm = .rne → n % 2 = 0) ∧ (rm = .rmm → w < n)) := by
  rcases hrm with rfl | rfl
  · obtain ⟨h1, h2, h3⟩ := h
    refine ⟨abs_le.2 ⟨by linarith, by linarith⟩, fun he => ⟨fun _ => h3 ?_, nofun⟩⟩
    exact ((abs_eq (by norm_num)).1 he).imp (fun h => by linarith) fun h => by linarith
  · obtain ⟨h1, h2⟩ := h
    refine ⟨abs_le.2 ⟨by linarith, by linarith⟩, fun he => ⟨nofun, fun _ => ?_⟩⟩
    rcases (abs_eq (by norm_num)).1 he with h | h <;> linarith

/-- `RoundInt` of a number is the integer its mode names, and says whether it differs. -/
theorem roundInt_rounds (rm : RoundingMode) (neg : Bool) (m : Nat) (e : Int) :
    let x : ℚ := (if neg then -1 else 1) * (m : ℚ) * 2 ^ e
    let r : ℚ := ((roundInt rm neg m e).1 : ℚ)
    ((roundInt rm neg m e).2 = true ↔ r ≠ x) ∧
      match rm with
      | .rne => |r - x| ≤ 1 / 2 ∧ (|r - x| = 1 / 2 → 2 ∣ (roundInt rm neg m e).1)
      | .rmm => |r - x| ≤ 1 / 2 ∧ (|r - x| = 1 / 2 → |x| < |r|)
      | .rtz => |r| ≤ |x| ∧ |x| < |r| + 1 ∧ 0 ≤ r * x
      | .rdn => r ≤ x ∧ x < r + 1
      | .rup => x ≤ r ∧ r < x + 1 := by
  intro x r
  obtain ⟨hround, hexact⟩ := quantizeAt_rounds rm neg (mant := m) (exp := e) (quantum := 0)
    (isRest_false (K := ℚ)) nofun
  rw [add_zero, sub_zero] at hround hexact
  generalize hw : (m : ℚ) * 2 ^ e = w at hround hexact
  have hw0 : 0 ≤ w := by rw [← hw]; positivity
  have hx : x = if neg then -w else w := by cases neg <;> simp [x, ← hw]
  generalize hq : quantizeAt rm neg m e false 0 = q at hround hexact
  have hint : roundInt rm neg m e = (signed neg q.1, q.2) := by rw [roundInt, hq]
  have hr : r = if neg then -(q.1 : ℚ) else q.1 := by cases neg <;> simp [r, hint, signed]
  have hdist : |r - x| = |(q.1 : ℚ) - w| := by
    rw [hr, hx]
    cases neg
    · rfl
    · rw [if_pos rfl, if_pos rfl, ← neg_sub', abs_neg]
  have hax : |x| = w := by cases neg <;> simp [hx, abs_of_nonneg hw0]
  have har : |r| = q.1 := by cases neg <;> simp [hr]
  rw [hdist, hax, har, hint]
  refine ⟨by rw [hexact]; cases neg <;> simp [hr, hx], ?_⟩
  cases rm with
  | rne =>
    obtain ⟨h1, h2⟩ := hround.near (.inl rfl)
    refine ⟨h1, fun h => ?_⟩
    have := (h2 h).1 rfl
    cases neg <;> simp [signed] <;> omega
  | rmm =>
    obtain ⟨h1, h2⟩ := hround.near (.inr rfl)
    exact ⟨h1, fun h => (h2 h).2 rfl⟩
  | rtz =>
    obtain ⟨h1, h2⟩ := hround
    refine ⟨h1, h2, ?_⟩
    have : 0 ≤ (q.1 : ℚ) * w := by positivity
    cases neg <;> simpa [hr, hx] using this
  | rdn =>
    cases neg
    · rw [hr, hx]
      exact hround
    · obtain ⟨h1, h2⟩ := hround
      simp only [hr, hx, if_true]
      exact ⟨by linarith, by linarith⟩
  | rup =>
    cases neg
    · rw [hr, hx]
      exact hround
    · obtain ⟨h1, h2⟩ := hround
      simp only [hr, hx, if_true]
      exact ⟨by linarith, by linarith⟩

/-- A conversion to the integers from `lo` to `hi` saturates at both ends with NV (R429). -/
theorem toInteger_fin {fmt : Fmt} {a : BitVec fmt.width} {neg : Bool} {m : Nat} {e : Int} (h : unpack a = .fin neg m e)
    (lo hi : Int) (rm : RoundingMode) :
    toInteger lo (hi - 1) a rm =
      if hi ≤ (roundInt rm neg m e).1 then (BitVec.ofInt 32 (hi - 1), flagNV)
      else if (roundInt rm neg m e).1 < lo then (BitVec.ofInt 32 lo, flagNV)
      else (BitVec.ofInt 32 (roundInt rm neg m e).1, if (roundInt rm neg m e).2 then flagNX else noFlags) := by
  simp only [toInteger, h, flagIf, Int.sub_one_lt_iff]

/-- Settles O41: `roundInt_rounds`, and `toInteger` on each class of operand. -/
theorem integerRounding : Obligations.IntegerRounding := by
  refine ⟨roundInt_rounds, fun fmt a rm => ?_⟩
  cases h : unpack a with
  | nan s => simp [fcvtW, fcvtWu, toInteger, h]
  | inf neg => cases neg <;> simp [fcvtW, fcvtWu, toInteger, h]
  | fin neg m e => exact ⟨toInteger_fin h (-2 ^ 31) (2 ^ 31) rm, toInteger_fin h 0 (2 ^ 32) rm⟩

end Sys2Proof.Machine
end

section
/-! SUPPORT. Rounding among the values of a format, in units of the distance between neighbours: the rounded integer is
the one the mode prefers to every other value (R408). -/
namespace Sys2Proof.Machine

variable {fmt : Fmt} {rm : RoundingMode} {neg : Bool}

/-! ### Rounding in units -/

section
variable {w z : ℝ} {n N : Nat}

/-- A rounded number is less than a unit away. -/
theorem RoundsNat.between (h : RoundsNat rm neg w n) : (n : ℝ) < w + 1 ∧ w < n + 1 := by
  match rm, neg with
  | .rne, _ => obtain ⟨h1, h2, -⟩ := h; exact ⟨by linarith, by linarith⟩
  | .rmm, _ => obtain ⟨h1, h2⟩ := h; exact ⟨by linarith, by linarith⟩
  | .rtz, _ | .rdn, false | .rup, true => obtain ⟨h1, h2⟩ := h; exact ⟨by linarith, by linarith⟩
  | .rdn, true | .rup, false => obtain ⟨h1, h2⟩ := h; exact ⟨by linarith, by linarith⟩

/-- Rounding goes past no integer. -/
theorem RoundsNat.le (h : RoundsNat rm neg w n) (hN : N ≤ w) : N ≤ n := by
  have : (N : ℝ) < n + 1 := hN.trans_lt h.between.2
  exact Nat.lt_succ_iff.1 (by exact_mod_cast this)

theorem RoundsNat.ge (h : RoundsNat rm neg w n) (hN : w ≤ N) : n ≤ N := by
  have : (n : ℝ) < N + 1 := by linarith [h.between.1]
  exact Nat.lt_succ_iff.1 (by exact_mod_cast this)

/-- Rounding reaches an even integer exactly where `Reaches` says (R408). -/
theorem RoundsNat.reaches_iff (h : RoundsNat rm neg w n) (hN : N % 2 = 0) : Reaches rm neg w N 1 ↔ N ≤ n := by
  have nearest (h1 : (n : ℝ) ≤ w + 1 / 2) (h2 : n < N → w < N - 1 / 2) : (N : ℝ) - 1 / 2 ≤ w ↔ N ≤ n := by
    constructor
    · intro hr
      by_contra hlt
      linarith [h2 (not_le.1 hlt)]
    · intro hle
      have : (N : ℝ) ≤ n := by exact_mod_cast hle
      linarith
  have floor (hn : (n : ℝ) ≤ w ∧ w < n + 1) : (N : ℝ) ≤ w ↔ N ≤ n :=
    ⟨h.le, fun hle => le_trans (by exact_mod_cast hle) hn.1⟩
  have ceil (hn : w ≤ (n : ℝ) ∧ (n : ℝ) < w + 1) : (N : ℝ) - 1 < w ↔ N ≤ n := by
    constructor
    · intro hr
      have : (N : ℝ) < n + 1 := by linarith
      exact Nat.lt_succ_iff.1 (by exact_mod_cast this)
    · intro hle
      have : (N : ℝ) ≤ n := by exact_mod_cast hle
      linarith
  match rm, neg with
  | .rne, _ =>
    obtain ⟨h1, h2, htie⟩ := h
    refine nearest h1 fun hlt => ?_
    have hsucc : (n : ℝ) + 1 ≤ N := by exact_mod_cast hlt
    rcases h2.lt_or_eq with h2 | h2
    · linarith
    · have heven := htie (.inr h2)
      have : (n : ℝ) + 2 ≤ N := by exact_mod_cast (by omega : n + 2 ≤ N)
      linarith
  | .rmm, _ =>
    obtain ⟨h1, h2⟩ := h
    refine nearest h1 fun hlt => ?_
    have hsucc : (n : ℝ) + 1 ≤ N := by exact_mod_cast hlt
    linarith
  | .rtz, _ | .rdn, false | .rup, true => exact floor h
  | .rdn, true | .rup, false => exact ceil h

/-- A value that rounding may choose beside `w`: an integer, or one below an integer below `w`. -/
def IsCandidate (w z : ℝ) : Prop := (∃ k : Nat, z = k) ∨ ∃ N : Nat, z < N ∧ N ≤ w

/-- No candidate is nearer than the rounded number, and the ties are those of the mode. -/
theorem RoundsNat.nearest (hrm : rm = .rne ∨ rm = .rmm) (h : RoundsNat rm neg w n) (hz : IsCandidate w z) :
    |(n : ℝ) - w| ≤ |z - w| ∧ (|(n : ℝ) - w| = |z - w| → z ≠ n → (rm = .rne → n % 2 = 0) ∧ (rm = .rmm → z ≤ n)) := by
  obtain ⟨hhalf, htie⟩ := h.near hrm
  have integer : ∀ {k : Nat}, k ≠ n → 1 / 2 ≤ |(k : ℝ) - w| := fun {k} hk => by
    have h1 : 1 ≤ |(k : ℝ) - n| := by
      have : (1 : ℤ) ≤ |(k : ℤ) - n| := Int.one_le_abs (by omega)
      exact_mod_cast this
    have h2 := abs_sub_le (k : ℝ) w n
    rw [abs_sub_comm w] at h2
    linarith
  rcases hz with ⟨k, rfl⟩ | ⟨N, hzN, hNw⟩
  · by_cases hk : k = n
    · subst hk
      exact ⟨le_rfl, fun _ hne => absurd rfl hne⟩
    · refine ⟨hhalf.trans (integer hk), fun he _ => ?_⟩
      have hf := le_antisymm hhalf (he ▸ integer hk)
      refine ⟨(htie hf).1, fun hr => ?_⟩
      have hlt := (htie hf).2 hr
      have hkn : |(k : ℝ) - w| = 1 / 2 := he ▸ hf
      rw [abs_of_pos (by linarith)] at hf
      rcases (abs_eq (by norm_num)).1 hkn with hk' | hk' <;> linarith
  · have hlt : |(n : ℝ) - w| < |z - w| := by
      rw [abs_of_neg (by linarith : z - w < 0)]
      by_cases hNn : N = n
      · subst hNn
        rw [abs_of_nonpos (by linarith)]
        linarith
      · have := integer hNn
        rw [abs_of_nonpos (by linarith)] at this
        linarith
    exact ⟨hlt.le, fun he => absurd he hlt.ne⟩

/-- A number below `w` whose magnitude is a candidate is below the integer part. -/
theorem IsCandidate.le_floor (hz : IsCandidate w |z|) (hn : w < n + 1) (hzw : z ≤ w) : z ≤ n := by
  rcases le_total z 0 with h0 | h0
  · exact h0.trans (Nat.cast_nonneg n)
  rw [abs_of_nonneg h0] at hz
  rcases hz with ⟨k, rfl⟩ | ⟨N, hzN, hNw⟩
  · have : (k : ℝ) < n + 1 := hzw.trans_lt hn
    exact_mod_cast Nat.lt_succ_iff.1 (by exact_mod_cast this)
  · have : (N : ℝ) < n + 1 := hNw.trans_lt hn
    exact hzN.le.trans (by exact_mod_cast Nat.lt_succ_iff.1 (by exact_mod_cast this))

/-- One above `w` is above the next integer. -/
theorem IsCandidate.ceil_le (hz : IsCandidate w |z|) (hw : 0 < w) (hn : (n : ℝ) < w + 1) (hwz : w ≤ z) : n ≤ z := by
  rw [abs_of_pos (hw.trans_le hwz)] at hz
  rcases hz with ⟨k, rfl⟩ | ⟨N, hzN, hNw⟩
  · have : (n : ℝ) < k + 1 := by linarith
    exact_mod_cast Nat.lt_succ_iff.1 (by exact_mod_cast this)
  · linarith

end

/-! ### Signed candidates (R408) -/

/-- `y` is the one the mode prefers to `z` for `x`; `even` says that the pattern of `y` is even. -/
def Prefers (rm : RoundingMode) (even : Prop) (x y z : ℝ) : Prop :=
  match rm with
  | .rne => |y - x| ≤ |z - x| ∧ (|y - x| = |z - x| → y ≠ z → even)
  | .rmm => |y - x| ≤ |z - x| ∧ (|y - x| = |z - x| → |z| ≤ |y|)
  | .rtz => |y| ≤ |x| ∧ (|z| ≤ |x| → |z| ≤ |y|)
  | .rdn => y ≤ x ∧ (z ≤ x → z ≤ y)
  | .rup => x ≤ y ∧ (x ≤ z → y ≤ z)

theorem roundedTo_iff {x y : ℝ} {v : BitVec fmt.width} : RoundedTo rm x v y ↔
    ∀ (u : BitVec fmt.width) (z : ℚ), finiteValue u = some z → Prefers rm (v.getLsbD 0 = false) x y z := by
  cases rm <;> exact Iff.rfl

theorem Prefers.scale {even : Prop} {x y z c : ℝ} (hc : 0 < c) (h : Prefers rm even x y z) :
    Prefers rm even (x * c) (y * c) (z * c) := by
  have hsub : ∀ u v : ℝ, |u * c - v * c| = |u - v| * c := fun u v => by rw [← sub_mul, abs_mul, abs_of_pos hc]
  have habs : ∀ u : ℝ, |u * c| = |u| * c := fun u => by rw [abs_mul, abs_of_pos hc]
  cases rm <;>
    simpa only [Prefers, hsub, habs, mul_le_mul_iff_left₀ hc, mul_left_inj' hc.ne', ne_eq] using h

/-- The number `w` with a sign. -/
def withNeg (neg : Bool) (w : ℝ) : ℝ := if neg then -w else w

theorem abs_withNeg {w : ℝ} (hw : 0 ≤ w) : |withNeg neg w| = w := by
  cases neg <;> simp [withNeg, abs_of_nonneg hw]

theorem abs_withNeg_sub (u w : ℝ) : |withNeg neg u - withNeg neg w| = |u - w| := by
  cases neg
  · rfl
  · simp only [withNeg, if_true]
    rw [← neg_sub', abs_neg]

theorem abs_neg_withNeg_sub {u w : ℝ} (hu : 0 ≤ u) (hw : 0 ≤ w) : |-withNeg neg u - withNeg neg w| = u + w := by
  rw [← neg_add', abs_neg]
  cases neg
  · exact abs_of_nonneg (add_nonneg hu hw)
  · simp only [withNeg, if_true]
    rw [← neg_add, abs_neg, abs_of_nonneg (add_nonneg hu hw)]

theorem withNeg_mul (w c : ℝ) : withNeg neg w * c = withNeg neg (w * c) := by
  cases neg
  · rfl
  · exact neg_mul w c

theorem withNeg_inj {w w' : ℝ} : withNeg neg w = withNeg neg w' ↔ w = w' := by
  cases neg
  · rfl
  · exact neg_inj

/-- The rounded number is preferred to every number whose magnitude is a candidate. -/
theorem RoundsNat.prefers {w z : ℝ} {n : Nat} (h : RoundsNat rm neg w n) (hw : 0 < w) (hz : IsCandidate w |z|) :
    Prefers rm (n % 2 = 0) (withNeg neg w) (withNeg neg n) z := by
  have hn0 : (0 : ℝ) ≤ n := Nat.cast_nonneg n
  have hle : |(|z|) - w| ≤ |z - withNeg neg w| := by
    simpa only [abs_withNeg hw.le] using abs_abs_sub_abs_le z (withNeg neg w)
  match rm with
  | .rne =>
    obtain ⟨hnear, htie⟩ := h.nearest (.inl rfl) hz
    simp only [Prefers, abs_withNeg_sub]
    refine ⟨hnear.trans hle, fun he hne => (htie (le_antisymm hnear (he ▸ hle)) fun hzn => ?_).1 rfl⟩
    -- `z` is `y` with the other sign, which is further away unless both are zero
    obtain rfl : z = -withNeg neg (n : ℝ) :=
      (abs_eq_abs.1 (hzn.trans (abs_withNeg hn0).symm)).resolve_left hne.symm
    rw [abs_neg_withNeg_sub hn0 hw.le] at he
    have hn : (n : ℝ) = 0 := by
      rcases abs_cases ((n : ℝ) - w) with ⟨habs, -⟩ | ⟨habs, -⟩ <;> linarith
    exact hne (by rw [hn]; cases neg <;> simp [withNeg])
  | .rmm =>
    obtain ⟨hnear, htie⟩ := h.nearest (.inr rfl) hz
    simp only [Prefers, abs_withNeg_sub, abs_withNeg hn0]
    refine ⟨hnear.trans hle, fun he => ?_⟩
    by_cases hzn : |z| = n
    · exact hzn.le
    · exact (htie (le_antisymm hnear (he ▸ hle)) hzn).2 rfl
  | .rtz =>
    obtain ⟨h1, h2⟩ := h
    simp only [Prefers, abs_withNeg hn0, abs_withNeg hw.le]
    exact ⟨h1, IsCandidate.le_floor (by rwa [abs_abs]) h2⟩
  | .rdn =>
    cases neg
    · obtain ⟨h1, h2⟩ := h
      exact ⟨h1, hz.le_floor h2⟩
    · obtain ⟨h1, h2⟩ := h
      exact ⟨neg_le_neg h1, fun hzx =>
        le_neg_of_le_neg (IsCandidate.ceil_le (by rwa [abs_neg]) hw h2 (le_neg_of_le_neg hzx))⟩
  | .rup =>
    cases neg
    · obtain ⟨h1, h2⟩ := h
      exact ⟨h1, hz.ceil_le hw h2⟩
    · obtain ⟨h1, h2⟩ := h
      exact ⟨neg_le_neg h1, fun hzx =>
        neg_le_of_neg_le (IsCandidate.le_floor (by rwa [abs_neg]) h2 (neg_le_of_neg_le hzx))⟩

end Sys2Proof.Machine
end

section
/-! SUPPORT. Correct rounding to a format: `round` gives what R408 to R411 ask of the exact real it is given. -/
namespace Sys2Proof.Machine

variable {fmt : Fmt} {rm : RoundingMode} {neg : Bool}

/-! ### Overflow and tininess (R409, R410) -/

theorem Reaches.of_le {ax p u : ℝ} (hu : 0 < u) (h : p ≤ ax) : Reaches rm neg ax p u := by
  cases rm <;> cases neg <;> simp only [Reaches, Bool.false_eq_true, if_true, if_false] <;> linarith

theorem not_reaches_of_lt {ax p u : ℝ} (hu : 0 < u) (h : ax < p - u) : ¬ Reaches rm neg ax p u := by
  cases rm <;> cases neg <;> simp only [Reaches, Bool.false_eq_true, if_true, if_false] <;> linarith

theorem reaches_scale {ax p u c : ℝ} (hc : 0 < c) :
    Reaches rm neg (ax * c) (p * c) (u * c) ↔ Reaches rm neg ax p u := by
  have h1 : p * c - u * c / 2 = (p - u / 2) * c := by ring
  cases rm <;>
    simp only [Reaches, h1, ← sub_mul, mul_le_mul_iff_left₀ hc, mul_lt_mul_iff_left₀ hc]

/-- Rounding to a multiple of a power of two goes past no greater power of two. -/
theorem RoundsNat.two_pow_le {ax : ℝ} {q : Int} {n k : Nat} (h : RoundsNat rm neg (ax / 2 ^ q) n)
    (hax : 2 ^ (q + k) ≤ ax) : 2 ^ k ≤ n := by
  refine h.le ?_
  rw [le_div_iff₀ (by positivity)]
  push_cast
  rwa [← zpow_natCast, ← zpow_add₀ two_ne_zero, add_comm]

theorem RoundsNat.le_two_pow {ax : ℝ} {q : Int} {n k : Nat} (h : RoundsNat rm neg (ax / 2 ^ q) n)
    (hax : ax ≤ 2 ^ (q + k)) : n ≤ 2 ^ k := by
  refine h.ge ?_
  rw [div_le_iff₀ (by positivity)]
  push_cast
  rwa [← zpow_natCast, ← zpow_add₀ two_ne_zero, add_comm]

/-- A magnitude between two powers of two, rounded to precision p with no bound on the exponent, reaches a power exactly
where `Reaches` says. -/
theorem reaches_two_zpow {ax : ℝ} {lead : Int} {n : Nat} (hlo : 2 ^ lead ≤ ax) (hhi : ax < 2 ^ (lead + 1))
    (h : RoundsNat rm neg (ax / 2 ^ (lead - fmt.fracBits)) n) (l : Int) :
    Reaches rm neg ax (2 ^ l) (2 ^ (l - fmt.precision)) ↔ (2 : ℝ) ^ l ≤ n * 2 ^ (lead - fmt.fracBits) := by
  have hprec := precision_cast fmt
  have hlow : 2 ^ fmt.fracBits ≤ n := h.two_pow_le (by rwa [sub_add_cancel])
  have hhigh : n ≤ 2 ^ fmt.precision := h.le_two_pow (by rw [hprec, ← add_assoc, sub_add_cancel]; exact hhi.le)
  generalize hq : lead - (fmt.fracBits : Int) = q at h ⊢
  have hunit : (0 : ℝ) < 2 ^ q := by positivity
  have hmul : ∀ k : Nat, (2 : ℝ) ^ k * 2 ^ q = 2 ^ (k + q) := fun k => by
    rw [← zpow_natCast, ← zpow_add₀ two_ne_zero]
  have mono : ∀ {i j : Int}, i ≤ j → (2 : ℝ) ^ i ≤ 2 ^ j := fun hij => zpow_le_zpow_right₀ one_le_two hij
  rcases lt_trichotomy l (lead + 1) with hl | rfl | hl
  · refine iff_of_true (.of_le (by positivity) ((mono (by omega)).trans hlo)) ?_
    calc (2 : ℝ) ^ l ≤ 2 ^ (fmt.fracBits + q) := mono (by omega)
      _ = 2 ^ fmt.fracBits * 2 ^ q := (hmul _).symm
      _ ≤ n * 2 ^ q := by gcongr; exact_mod_cast hlow
  · have heven : 2 ^ fmt.precision % 2 = 0 := by rw [Fmt.precision, pow_succ]; omega
    have hp : (2 : ℝ) ^ (lead + 1) = (2 ^ fmt.precision : Nat) * 2 ^ q := by
      push_cast
      rw [hmul]
      congr 1; omega
    have hu : (2 : ℝ) ^ (lead + 1 - fmt.precision) = 1 * 2 ^ q := by
      rw [one_mul]
      congr 1; omega
    have hax : ax = ax / 2 ^ q * 2 ^ q := by field_simp
    rw [hp, hu, mul_le_mul_iff_left₀ hunit, hax, reaches_scale hunit, h.reaches_iff heven, Nat.cast_le]
  · refine iff_of_false (not_reaches_of_lt (by positivity) ?_) (not_le.2 ?_)
    · have h1 : (2 : ℝ) ^ (l - fmt.precision) ≤ 2 ^ (l - 1) := mono (by omega)
      have h2 : (2 : ℝ) ^ (lead + 1) ≤ 2 ^ (l - 1) := mono (by omega)
      have h3 : (2 : ℝ) ^ l = 2 ^ (l - 1) * 2 := by rw [← zpow_add_one₀ two_ne_zero, sub_add_cancel]
      linarith
    · calc (n : ℝ) * 2 ^ q ≤ 2 ^ fmt.precision * 2 ^ q := by gcongr; exact_mod_cast hhigh
        _ = 2 ^ (fmt.precision + q) := hmul _
        _ < 2 ^ l := zpow_lt_zpow_right₀ one_lt_two (by omega)

/-- The power that overflows is infinity's place among the magnitudes (R409). -/
theorem magnitudeValue_infMagnitude (fmt : Fmt) : magnitudeValue fmt fmt.infMagnitude = 2 ^ (Fmt.emax fmt + 1) := by
  have hk : ∃ k : Nat, 2 ^ fmt.expBits - 1 = k + 1 ∧ (k : Int) = 2 * fmt.bias := by
    cases fmt <;> exact ⟨_, rfl, rfl⟩
  obtain ⟨k, hk, hbias⟩ := hk
  have hle : 2 ^ fmt.fracBits ≤ 2 ^ fmt.precision := Nat.pow_le_pow_right (by decide) (Nat.le_succ _)
  rw [Fmt.infMagnitude, hk, Nat.succ_mul, magnitudeValue_mul_add hle (.inr le_rfl), leastExp, Fmt.emin, Fmt.emax, hbias]
  push_cast
  rw [← zpow_natCast, ← zpow_add₀ two_ne_zero]
  congr 1; ring

/-! ### The values of a format near a real (R408) -/

/-- Every value of the format is a multiple of the distance between neighbours at a real, or nearer to zero than the
power of two below the real. -/
theorem isCandidate_magnitudeValue {ax : ℝ} {lead quantum : Int} (hlo : 2 ^ lead ≤ ax)
    (hquantum : quantum = max (lead - fmt.fracBits) (leastExp fmt)) (mag : Nat) :
    IsCandidate (ax / 2 ^ quantum) (magnitudeValue fmt mag / 2 ^ quantum : ℝ) := by
  have hunit : (0 : ℝ) < 2 ^ quantum := by positivity
  obtain ⟨hsig, -⟩ := significand_bounds fmt mag
  rcases le_or_gt quantum (leastExp fmt + binade fmt mag) with hle | hgt
  · obtain ⟨k, hk⟩ := Int.eq_ofNat_of_zero_le (sub_nonneg.2 hle)
    refine .inl ⟨significand fmt mag * 2 ^ k, ?_⟩
    rw [magnitudeValue, div_eq_iff hunit.ne']
    push_cast
    rw [mul_assoc, ← zpow_natCast, ← zpow_add₀ two_ne_zero, add_comm (k : Int), sub_eq_iff_eq_add'.1 hk]
  · have hq : quantum = lead - fmt.fracBits := by omega
    refine .inr ⟨2 ^ fmt.fracBits, ?_, ?_⟩
    · rw [div_lt_iff₀ hunit, magnitudeValue]
      push_cast
      calc (significand fmt mag : ℝ) * 2 ^ (leastExp fmt + (binade fmt mag : ℤ))
          < 2 ^ fmt.precision * 2 ^ (leastExp fmt + (binade fmt mag : ℤ)) := by gcongr; exact_mod_cast hsig
        _ = 2 ^ fmt.fracBits * 2 ^ (leastExp fmt + (binade fmt mag : ℤ) + 1) := by
          rw [Fmt.precision, zpow_add_one₀ two_ne_zero]; ring
        _ ≤ 2 ^ fmt.fracBits * 2 ^ quantum := by gcongr <;> [norm_num; omega]
    · rw [le_div_iff₀ hunit, hq]
      push_cast
      rw [← zpow_natCast, ← zpow_add₀ two_ne_zero, add_sub_cancel]
      exact hlo

section
variable {ax : ℝ} {q : Int} {mag n : Nat}

/-- A packed finite magnitude is the number it stands for. -/
theorem finiteValue_pack (h : mag < fmt.infMagnitude) :
    finiteValue (pack fmt neg mag) = some ((if neg then -1 else 1) * magnitudeValue fmt mag) := by
  have hlt := h.trans (infMagnitude_lt fmt)
  rw [finiteValue_of_lt (by rwa [magnitude_pack hlt]), signOf_pack hlt, magnitude_pack hlt]

theorem cast_signed_mul (v : ℚ) : (((if neg then -1 else 1) * v : ℚ) : ℝ) = withNeg neg v := by
  cases neg <;> simp [withNeg]

theorem getLsbD_zero_pack (h : mag < fmt.infMagnitude) : (pack fmt neg mag).getLsbD 0 = false ↔ mag % 2 = 0 := by
  have hw := width_eq fmt
  have hf := fracBits_pos fmt
  rw [getLsbD_pack (h.trans (infMagnitude_lt fmt)) (by omega), if_neg (by omega), Nat.testBit_zero]
  simp

/-- What rounds in units of the distance between neighbours is, packed, the value the mode chooses in the format
(R408). -/
theorem roundedTo_pack (hpos : 0 < ax) (hcand : ∀ m, IsCandidate (ax / 2 ^ q) (magnitudeValue fmt m / 2 ^ q : ℝ))
    (hr : RoundsNat rm neg (ax / 2 ^ q) n) (hval : magnitudeValue fmt mag = n * 2 ^ q) (hparity : mag % 2 = n % 2)
    (hlt : mag < fmt.infMagnitude) :
    RoundedTo rm (withNeg neg ax) (pack fmt neg mag) (withNeg neg (magnitudeValue fmt mag)) := by
  have hunit : (0 : ℝ) < 2 ^ q := by positivity
  rw [roundedTo_iff]
  intro u z hz
  have hz' : |(z : ℝ) / 2 ^ q| = magnitudeValue fmt (magnitude u) / 2 ^ q := by
    rw [finiteValue_of_lt (magnitude_lt_of_finiteValue hz)] at hz
    rw [← Option.some.inj hz, abs_div, abs_of_pos hunit]
    have hnn : (0 : ℝ) ≤ magnitudeValue fmt (magnitude u) := by exact_mod_cast magnitudeValue_nonneg _ _
    cases signOf u <;> simp [abs_of_nonneg hnn]
  have h := (hr.prefers (div_pos hpos hunit) (hz' ▸ hcand (magnitude u))).scale hunit
  have heven : (n % 2 = 0) = ((pack fmt neg mag).getLsbD 0 = false) := by rw [getLsbD_zero_pack hlt, hparity]
  have hval' : (magnitudeValue fmt mag : ℝ) = n * 2 ^ q := by rw [hval]; push_cast; rfl
  rwa [withNeg_mul, withNeg_mul, div_mul_cancel₀ _ hunit.ne', div_mul_cancel₀ _ hunit.ne', heven, ← hval'] at h

end

/-! ### `round`, part by part -/

section
variable {mant : Nat} {exp : Int} {sticky : Bool} {t : ℝ}

/-- The distance between neighbours where `round` rounds, as a power of two. -/
def roundQuantum (fmt : Fmt) (mant : Nat) (exp : Int) : Int :=
  max (Nat.log2 mant + exp - fmt.fracBits) (leastExp fmt)

/-- The magnitude `round` packs, in units of that distance. -/
def roundUnits (fmt : Fmt) (rm : RoundingMode) (neg : Bool) (mant : Nat) (exp : Int) (sticky : Bool) : Nat × Bool :=
  quantizeAt rm neg mant exp sticky (roundQuantum fmt mant exp)

/-- The magnitude `round` packs. -/
def roundMagnitude (fmt : Fmt) (rm : RoundingMode) (neg : Bool) (mant : Nat) (exp : Int) (sticky : Bool) : Nat :=
  (roundQuantum fmt mant exp - leastExp fmt).toNat * 2 ^ fmt.fracBits + (roundUnits fmt rm neg mant exp sticky).1

/-- The tininess `round` finds, from the magnitude rounded with no bound on the exponent (R410). -/
def roundTiny (fmt : Fmt) (rm : RoundingMode) (neg : Bool) (mant : Nat) (exp : Int) (sticky : Bool) : Bool :=
  decide ((quantizeAt rm neg mant exp sticky (Nat.log2 mant + exp - fmt.fracBits)).1 <
    2 ^ (fmt.emin - (Nat.log2 mant + exp - fmt.fracBits)).toNat)

theorem round_eq : round fmt rm neg mant exp sticky =
    if fmt.infMagnitude ≤ roundMagnitude fmt rm neg mant exp sticky then
      (pack fmt neg (if overflowsToInf rm neg then fmt.infMagnitude else fmt.infMagnitude - 1), flagOF ||| flagNX)
    else (pack fmt neg (roundMagnitude fmt rm neg mant exp sticky),
      flagIf (roundTiny fmt rm neg mant exp sticky && (roundUnits fmt rm neg mant exp sticky).2) flagUF |||
        flagIf (roundUnits fmt rm neg mant exp sticky).2 flagNX) := rfl

/-- The leading bit of the mantissa places the real between two powers of two. -/
theorem lead_bounds (hm : mant ≠ 0) (ht : IsRest sticky t) :
    (2 : ℝ) ^ (Nat.log2 mant + exp) ≤ (mant + t) * 2 ^ exp ∧
      (mant + t) * 2 ^ exp < (2 : ℝ) ^ (Nat.log2 mant + exp + 1) := by
  obtain ⟨h0, h1, -⟩ := ht
  have hlo : (2 : ℝ) ^ Nat.log2 mant ≤ mant := by exact_mod_cast Nat.log2_self_le hm
  have hhi : (mant : ℝ) + 1 ≤ 2 ^ (Nat.log2 mant + 1) := by exact_mod_cast (Nat.lt_log2_self : mant < _)
  have hmul : ∀ k : Nat, (2 : ℝ) ^ (k + exp) = 2 ^ k * 2 ^ exp := fun k => by
    rw [zpow_add₀ two_ne_zero, zpow_natCast]
  constructor
  · rw [hmul]
    gcongr
    linarith
  · have hexp : ((Nat.log2 mant : Int) + exp + 1) = ((Nat.log2 mant + 1 : Nat) : Int) + exp := by push_cast; ring
    rw [hexp, hmul]
    gcongr
    linarith

/-- `quantizeAt`, in the real's own terms. -/
theorem quantizeAt_rounds_div (rm : RoundingMode) (neg : Bool) (ht : IsRest sticky t) {quantum : Int}
    (hs : sticky = true → exp < quantum) :
    RoundsNat rm neg ((mant + t) * 2 ^ exp / 2 ^ quantum) (quantizeAt rm neg mant exp sticky quantum).1 ∧
      ((quantizeAt rm neg mant exp sticky quantum).2 = true ↔
        ((quantizeAt rm neg mant exp sticky quantum).1 : ℝ) ≠ (mant + t) * 2 ^ exp / 2 ^ quantum) := by
  rw [mul_div_assoc, ← zpow_sub₀ two_ne_zero]
  exact quantizeAt_rounds rm neg ht hs

theorem roundUnits_rounds (ht : IsRest sticky t) (hs : sticky = true → fmt.precision ≤ Nat.log2 mant) :
     RoundsNat rm neg ((mant + t) * 2 ^ exp / 2 ^ roundQuantum fmt mant exp)
      (roundUnits fmt rm neg mant exp sticky).1 ∧
    ((roundUnits fmt rm neg mant exp sticky).2 = true ↔ ((roundUnits fmt rm neg mant exp sticky).1 : ℝ) ≠
      (mant + t) * 2 ^ exp / 2 ^ roundQuantum fmt mant exp) :=
  quantizeAt_rounds_div rm neg ht fun h => by
    have := hs h
    rw [Fmt.precision] at this
    rw [roundQuantum]
    omega

/-- The packed magnitude is even exactly where the units are. -/
theorem roundMagnitude_mod_two : roundMagnitude fmt rm neg mant exp sticky % 2 =
    (roundUnits fmt rm neg mant exp sticky).1 % 2 := by
  obtain ⟨k, hk⟩ := Nat.exists_eq_succ_of_ne_zero (fracBits_pos fmt).ne'
  rw [roundMagnitude, hk, pow_succ, ← mul_assoc]
  omega

variable (hm : mant ≠ 0) (ht : IsRest sticky t) (hs : sticky = true → fmt.precision ≤ Nat.log2 mant)
include hm ht hs

theorem magnitudeValue_roundMagnitude : magnitudeValue fmt (roundMagnitude fmt rm neg mant exp sticky) =
    (roundUnits fmt rm neg mant exp sticky).1 * 2 ^ roundQuantum fmt mant exp := by
  obtain ⟨hlo, hhi⟩ := lead_bounds (exp := exp) hm ht
  obtain ⟨hr, -⟩ := roundUnits_rounds (rm := rm) (neg := neg) (exp := exp) ht hs
  have hq : roundQuantum fmt mant exp = max (Nat.log2 mant + exp - fmt.fracBits) (leastExp fmt) := rfl
  have hprec := precision_cast fmt
  have hk : leastExp fmt + (roundQuantum fmt mant exp - leastExp fmt).toNat = roundQuantum fmt mant exp := by omega
  have hhigh : (roundUnits fmt rm neg mant exp sticky).1 ≤ 2 ^ fmt.precision :=
    hr.le_two_pow (hhi.le.trans (zpow_le_zpow_right₀ one_le_two (by omega)))
  have hlow : (roundQuantum fmt mant exp - leastExp fmt).toNat = 0 ∨
      2 ^ fmt.fracBits ≤ (roundUnits fmt rm neg mant exp sticky).1 := by
    rcases le_or_gt (Nat.log2 mant + exp - fmt.fracBits) (leastExp fmt) with hle | hgt
    · left; omega
    · exact .inr (hr.two_pow_le ((zpow_le_zpow_right₀ one_le_two (by omega)).trans hlo))
  rw [roundMagnitude, magnitudeValue_mul_add hhigh hlow, hk]

/-- The magnitude reaches infinity's exactly where the real overflows (R409). -/
theorem infMagnitude_le_roundMagnitude : fmt.infMagnitude ≤ roundMagnitude fmt rm neg mant exp sticky ↔
    Reaches rm neg ((mant + t) * 2 ^ exp) (2 ^ (Fmt.emax fmt + 1)) (2 ^ (Fmt.emax fmt - fmt.fracBits)) := by
  obtain ⟨hlo, hhi⟩ := lead_bounds (exp := exp) hm ht
  obtain ⟨hr, -⟩ := roundUnits_rounds (rm := rm) (neg := neg) (exp := exp) ht hs
  have hq : roundQuantum fmt mant exp = max (Nat.log2 mant + exp - fmt.fracBits) (leastExp fmt) := rfl
  have hprec := precision_cast fmt
  have hrat : (2 : ℚ) ^ (Fmt.emax fmt + 1) ≤
        (roundUnits fmt rm neg mant exp sticky).1 * 2 ^ roundQuantum fmt mant exp ↔
      (2 : ℝ) ^ (Fmt.emax fmt + 1) ≤
        (roundUnits fmt rm neg mant exp sticky).1 * 2 ^ roundQuantum fmt mant exp := by
    rw [← Rat.cast_le (K := ℝ)]; push_cast; rfl
  rw [← (magnitudeValue_strictMono fmt).le_iff_le, magnitudeValue_infMagnitude,
    magnitudeValue_roundMagnitude hm ht hs, hrat, ← add_sub_add_right_eq_sub (Fmt.emax fmt) _ 1, ← hprec]
  rcases le_or_gt (leastExp fmt) (Nat.log2 mant + exp - fmt.fracBits) with hle | hgt
  · rw [max_eq_left hle] at hq
    rw [hq] at hr ⊢
    exact (reaches_two_zpow hlo hhi hr _).symm
  · -- below the normal numbers nothing overflows
    have hemin : leastExp fmt + fmt.fracBits < Fmt.emax fmt := by cases fmt <;> decide
    have hhigh := hr.le_two_pow (k := fmt.precision) (hhi.le.trans (zpow_le_zpow_right₀ one_le_two (by omega)))
    refine iff_of_false (not_le.2 ?_) (not_reaches_of_lt (by positivity) ?_)
    · calc ((roundUnits fmt rm neg mant exp sticky).1 : ℝ) * 2 ^ roundQuantum fmt mant exp
          ≤ 2 ^ fmt.precision * 2 ^ roundQuantum fmt mant exp := by gcongr; exact_mod_cast hhigh
        _ = 2 ^ (fmt.precision + roundQuantum fmt mant exp) := by rw [← zpow_natCast, ← zpow_add₀ two_ne_zero]
        _ < 2 ^ (Fmt.emax fmt + 1) := zpow_lt_zpow_right₀ one_lt_two (by omega)
    · have h1 : (2 : ℝ) ^ (Fmt.emax fmt + 1 - fmt.precision) ≤ 2 ^ Fmt.emax fmt :=
        zpow_le_zpow_right₀ one_le_two (by omega)
      have h2 : (2 : ℝ) ^ (Nat.log2 mant + exp + 1) ≤ 2 ^ Fmt.emax fmt := zpow_le_zpow_right₀ one_le_two (by omega)
      rw [zpow_add_one₀ two_ne_zero (Fmt.emax fmt)]
      linarith

/-- The real is tiny exactly where `round` finds it so (R410). -/
theorem roundTiny_iff : roundTiny fmt rm neg mant exp sticky = true ↔
    ¬ Reaches rm neg ((mant + t) * 2 ^ exp) (2 ^ fmt.emin) (2 ^ (fmt.emin - fmt.precision)) := by
  obtain ⟨hlo, hhi⟩ := lead_bounds (exp := exp) hm ht
  obtain ⟨hr, -⟩ := quantizeAt_rounds_div rm neg (mant := mant) (exp := exp)
    (quantum := Nat.log2 mant + exp - fmt.fracBits) ht fun h => by
    have := hs h
    rw [Fmt.precision] at this
    omega
  have hlow := hr.two_pow_le (k := fmt.fracBits) (by rwa [sub_add_cancel])
  rw [reaches_two_zpow hlo hhi hr, not_le, roundTiny, decide_eq_true_iff]
  generalize (Nat.log2 mant : Int) + exp - fmt.fracBits = q at hlow ⊢
  generalize (quantizeAt rm neg mant exp sticky q).1 = n at hlow ⊢
  have hunit : (0 : ℝ) < 2 ^ q := by positivity
  rcases le_or_gt q fmt.emin with hle | hgt
  · obtain ⟨k, hk⟩ := Int.eq_ofNat_of_zero_le (sub_nonneg.2 hle)
    have hp : (2 : ℝ) ^ fmt.emin = (2 ^ k : Nat) * 2 ^ q := by
      push_cast
      rw [← zpow_natCast, ← zpow_add₀ two_ne_zero]
      congr 1; omega
    rw [hk, hp, mul_lt_mul_iff_left₀ hunit, Nat.cast_lt, Int.toNat_natCast]
  · have hone : 1 ≤ n := Nat.one_le_two_pow.trans hlow
    have h0 : (fmt.emin - q).toNat = 0 := by omega
    refine iff_of_false (by rw [h0]; omega) (not_lt.2 ?_)
    calc (2 : ℝ) ^ fmt.emin ≤ 2 ^ q := zpow_le_zpow_right₀ one_le_two hgt.le
      _ ≤ n * 2 ^ q := le_mul_of_one_le_left hunit.le (by exact_mod_cast hone)

/-- `round` is correct rounding, with its flags (R408 to R411). -/
theorem round_correctlyRounded :
    CorrectlyRounded fmt rm (withNeg neg ((mant + t) * 2 ^ exp)) (round fmt rm neg mant exp sticky) := by
  have hpos : (0 : ℝ) < (mant + t) * 2 ^ exp := lt_of_lt_of_le (by positivity) (lead_bounds hm ht).1
  obtain ⟨hr, hinexact⟩ := roundUnits_rounds (rm := rm) (neg := neg) (exp := exp) ht hs
  have hval := magnitudeValue_roundMagnitude (rm := rm) (neg := neg) (exp := exp) hm ht hs
  have hover := infMagnitude_le_roundMagnitude (rm := rm) (neg := neg) (exp := exp) hm ht hs
  have htiny := roundTiny_iff (rm := rm) (neg := neg) (exp := exp) hm ht hs
  have hcand := isCandidate_magnitudeValue (quantum := roundQuantum fmt mant exp) (lead_bounds hm ht).1 rfl
  have hparity : roundMagnitude fmt rm neg mant exp sticky % 2 = (roundUnits fmt rm neg mant exp sticky).1 % 2 :=
    roundMagnitude_mod_two
  rw [round_eq]
  generalize (mant + t) * 2 ^ exp = ax at *
  generalize roundQuantum fmt mant exp = q at *
  generalize roundMagnitude fmt rm neg mant exp sticky = mag at *
  generalize roundTiny fmt rm neg mant exp sticky = tiny at *
  generalize roundUnits fmt rm neg mant exp sticky = r at *
  have habs : |withNeg neg ax| = ax := abs_withNeg hpos.le
  have hneg : decide (withNeg neg ax < 0) = neg := by cases neg <;> simp [withNeg, hpos, hpos.le]
  have hover' : Overflows fmt rm (withNeg neg ax) ↔ fmt.infMagnitude ≤ mag := by rw [Overflows, hneg, habs, hover]
  constructor
  · intro h
    rw [if_pos (hover'.1 h), hneg]
    cases neg <;> cases rm <;> simp [overflowsToInf, withNeg, hpos, not_lt.2 hpos.le]
  · intro h
    have hlt : mag < fmt.infMagnitude := not_le.1 (mt hover'.2 h)
    have hunit : (0 : ℝ) < 2 ^ q := by positivity
    have hexact : (((if neg then -1 else 1) * magnitudeValue fmt mag : ℚ) : ℝ) = withNeg neg ax ↔ r.2 = false := by
      rw [cast_signed_mul, withNeg_inj, hval, ← Bool.not_eq_true, hinexact, not_not, eq_div_iff hunit.ne']
      push_cast
      rfl
    have htiny' : Tiny fmt rm (withNeg neg ax) ↔ tiny = true := by rw [Tiny, hneg, habs, htiny]
    rw [if_neg (not_le.2 hlt), hneg]
    refine ⟨signOf_pack (hlt.trans (infMagnitude_lt fmt)), _, finiteValue_pack hlt, ?_, fun he => ?_, fun he ht => ?_,
      fun he ht => ?_⟩
    · rw [cast_signed_mul]
      exact roundedTo_pack hpos hcand hr hval hparity hlt
    · simp [hexact.1 he, flagIf, noFlags]
    · simp [Bool.eq_true_of_not_eq_false (mt hexact.2 he), htiny'.1 ht, flagIf]
    · simp [Bool.eq_true_of_not_eq_false (mt hexact.2 he), mt htiny'.2 ht, flagIf, noFlags]

end

end Sys2Proof.Machine
end

section
/-! SUPPORT. Sums, products and fused sums of finite operands: the exact value, given to `round` (R412, R417 to R419,
R423). -/
namespace Sys2Proof.Machine

variable {fmt : Fmt} {rm : RoundingMode} {a b c : BitVec fmt.width}

/-- A number with no rest is rounded correctly. -/
theorem round_number (neg : Bool) {m : Nat} (e : Int) (hm : m ≠ 0) :
    CorrectlyRounded fmt rm (((if neg then -1 else 1) * (m : ℚ) * 2 ^ e : ℚ) : ℝ) (round fmt rm neg m e false) := by
  have hx : (((if neg then -1 else 1) * (m : ℚ) * 2 ^ e : ℚ) : ℝ) = withNeg neg ((m + 0) * 2 ^ e) := by
    cases neg <;> simp [withNeg]
  rw [hx]
  exact round_correctlyRounded hm isRest_false nofun

theorem intCast_eq_number (k : Int) : (k : ℚ) = (if decide (k < 0) then -1 else 1) * (k.natAbs : ℚ) := by
  by_cases h : k < 0
  · simp [h, abs_of_neg]
  · simp [h, abs_of_nonneg (not_lt.1 h)]

/-- An integer number of units is rounded correctly. -/
theorem round_int {k : Int} (e : Int) (hk : k ≠ 0) :
    CorrectlyRounded fmt rm (((k : ℚ) * 2 ^ e : ℚ) : ℝ) (round fmt rm (decide (k < 0)) k.natAbs e false) := by
  rw [intCast_eq_number k]
  exact round_number _ e (Int.natAbs_ne_zero.2 hk)

/-- Two numbers that do not cancel add to their sum, rounded once (R417, R423). -/
theorem addFinite_correctlyRounded {nx ny : Bool} {mx my : Nat} {ex ey : Int}
    (h : (if nx then -1 else 1) * (mx : ℚ) * 2 ^ ex + (if ny then -1 else 1) * (my : ℚ) * 2 ^ ey ≠ 0) :
    CorrectlyRounded fmt rm
      (((if nx then -1 else 1) * (mx : ℚ) * 2 ^ ex + (if ny then -1 else 1) * (my : ℚ) * 2 ^ ey : ℚ) : ℝ)
      (addFinite fmt rm nx mx ex ny my ey) := by
  rw [number_eq_signed nx mx (min_le_left ex ey), number_eq_signed ny my (min_le_right ex ey), ← add_mul,
    ← Int.cast_add] at h ⊢
  have hne := Int.cast_ne_zero.1 (left_ne_zero_of_mul h)
  rw [addFinite, if_neg hne]
  exact round_int _ hne

/-! ### The operations on finite operands -/

theorem fadd_of_fin {na nb : Bool} {ma mb : Nat} {ea eb : Int} (ha : unpack a = .fin na ma ea)
    (hb : unpack b = .fin nb mb eb) : fadd a b rm = addFinite fmt rm na ma ea nb mb eb := by
  simp [fadd, ha, hb, Num.isNaN, addNum]

theorem fmul_of_fin {na nb : Bool} {ma mb : Nat} {ea eb : Int} (ha : unpack a = .fin na ma ea)
    (hb : unpack b = .fin nb mb eb) : fmul a b rm =
      if ma * mb = 0 then quiet (zeroOf fmt (na ^^ nb)) else round fmt rm (na ^^ nb) (ma * mb) (ea + eb) false := by
  simp [fmul, ha, hb]

theorem ffma_of_fin {na nb nc : Bool} {ma mb mc : Nat} {ea eb ec : Int} (negP negC : Bool)
    (ha : unpack a = .fin na ma ea) (hb : unpack b = .fin nb mb eb) (hc : unpack c = .fin nc mc ec) :
    ffma negP negC a b c rm =
      addFinite fmt rm (signOf a ^^ signOf b ^^ negP) (ma * mb) (ea + eb) (signOf c ^^ negC) mc ec := by
  simp [ffma, ha, hb, hc, Num.isInf, Num.isNaN, Num.isZero, mulNum, Num.negIf, addNum, signOf_of_unpack_fin hc]

theorem finiteValue_flipSign {y : ℚ} (h : finiteValue b = some y) : finiteValue (flipSign b) = some (-y) := by
  obtain ⟨neg, m, e, hb, rfl⟩ := finiteValue_eq_some h
  rw [finiteValue, unpack_flipSign, hb]
  cases neg <;> simp [Num.negIf]

/-- The product of two numbers as one number. -/
theorem number_mul (na nb : Bool) (ma mb : Nat) (ea eb : Int) :
    (if na then -1 else 1) * (ma : ℚ) * 2 ^ ea * ((if nb then -1 else 1) * (mb : ℚ) * 2 ^ eb) =
      (if na ^^ nb then -1 else 1) * ((ma * mb : Nat) : ℚ) * 2 ^ (ea + eb) := by
  rw [zpow_add₀ two_ne_zero]
  cases na <;> cases nb <;> simp <;> ring

/-- A number with its sign changed where `c` holds. -/
theorem number_negIf (neg c : Bool) (m : Nat) (e : Int) :
    (if c then -1 else 1) * ((if neg then -1 else 1) * (m : ℚ) * 2 ^ e) =
      (if neg ^^ c then -1 else 1) * (m : ℚ) * 2 ^ e := by
  cases neg <;> cases c <;> simp

theorem fadd_rounds {x y : ℚ} (hx : finiteValue a = some x) (hy : finiteValue b = some y) :
    (x + y ≠ 0 → CorrectlyRounded fmt rm ((x + y : ℚ) : ℝ) (fadd a b rm)) ∧
    (x + y = 0 → fadd a b rm =
      (zeroOf fmt (if signOf a = signOf b then signOf a else decide (rm = .rdn)), noFlags)) := by
  obtain ⟨na, ma, ea, ha, rfl⟩ := finiteValue_eq_some hx
  obtain ⟨nb, mb, eb, hb, rfl⟩ := finiteValue_eq_some hy
  rw [fadd_of_fin ha hb]
  refine ⟨addFinite_correctlyRounded, fun h => ?_⟩
  rw [addFinite_of_sum_zero rm h, signOf_of_unpack_fin ha, signOf_of_unpack_fin hb]

theorem fmul_rounds {x y : ℚ} (hx : finiteValue a = some x) (hy : finiteValue b = some y) :
    (x * y ≠ 0 → CorrectlyRounded fmt rm ((x * y : ℚ) : ℝ) (fmul a b rm)) ∧
    (x * y = 0 → fmul a b rm = (zeroOf fmt (signOf a ^^ signOf b), noFlags)) := by
  obtain ⟨na, ma, ea, ha, rfl⟩ := finiteValue_eq_some hx
  obtain ⟨nb, mb, eb, hb, rfl⟩ := finiteValue_eq_some hy
  rw [fmul_of_fin ha hb, number_mul, number_eq_zero]
  constructor
  · intro h
    have hm : ma * mb ≠ 0 := mt number_eq_zero.2 h
    rw [if_neg hm]
    exact round_number _ _ hm
  · intro h
    rw [if_pos h, quiet, signOf_of_unpack_fin ha, signOf_of_unpack_fin hb]

theorem ffma_rounds {x y z : ℚ} (hx : finiteValue a = some x) (hy : finiteValue b = some y)
    (hz : finiteValue c = some z) (negP negC : Bool) :
    let p := (if negP then -1 else 1) * (x * y)
    let q := (if negC then -1 else 1) * z
    let signP := signOf a ^^ signOf b ^^ negP
    let signC := signOf c ^^ negC
    (p + q ≠ 0 → CorrectlyRounded fmt rm ((p + q : ℚ) : ℝ) (ffma negP negC a b c rm)) ∧
    (p + q = 0 → ffma negP negC a b c rm =
      (zeroOf fmt (if signP = signC then signP else decide (rm = .rdn)), noFlags)) := by
  obtain ⟨na, ma, ea, ha, rfl⟩ := finiteValue_eq_some hx
  obtain ⟨nb, mb, eb, hb, rfl⟩ := finiteValue_eq_some hy
  obtain ⟨nc, mc, ec, hc, rfl⟩ := finiteValue_eq_some hz
  obtain rfl := signOf_of_unpack_fin ha
  obtain rfl := signOf_of_unpack_fin hb
  obtain rfl := signOf_of_unpack_fin hc
  intro p q signP signC
  have hp : p = (if signP then -1 else 1) * ((ma * mb : Nat) : ℚ) * 2 ^ (ea + eb) := by
    simp only [p, number_mul, number_negIf, signP]
  have hq : q = (if signC then -1 else 1) * (mc : ℚ) * 2 ^ ec := number_negIf _ _ _ _
  rw [ffma_of_fin negP negC ha hb hc, hp, hq]
  exact ⟨addFinite_correctlyRounded, addFinite_of_sum_zero rm⟩

/-- Settles O44: each operation is `round` of its exact value, or `addFinite_of_sum_zero`; a difference is the sum with
the sign of the second operand changed. -/
theorem sumsAndProductsRound : Obligations.SumsAndProductsRound := by
  intro fmt rm a b c x y z hx hy hz
  obtain ⟨hadd, hadd0⟩ := fadd_rounds (rm := rm) hx hy
  obtain ⟨hsub, hsub0⟩ := fadd_rounds (rm := rm) hx (finiteValue_flipSign hy)
  obtain ⟨hmul, hmul0⟩ := fmul_rounds (rm := rm) hx hy
  rw [← sub_eq_add_neg] at hsub hsub0
  refine ⟨hadd, hadd0, hsub, fun h => ?_, hmul, hmul0, ffma_rounds hx hy hz⟩
  rw [fsub, hsub0 h, signOf_flipSign]
  cases signOf a <;> cases signOf b <;> simp

end Sys2Proof.Machine
end

section
/-! SUPPORT. Quotients, roots and conversions of finite operands: the exact value, with what its mantissa leaves out,
given to `round` (R420, R421, R430, R431). -/
namespace Sys2Proof.Machine

variable {fmt : Fmt} {rm : RoundingMode} {a b : BitVec fmt.width}

/-- A finite pattern has at most p significant bits, above the least exponent. -/
theorem unpack_fin_bounds {neg : Bool} {m : Nat} {e : Int} (h : unpack a = .fin neg m e) :
    m < 2 ^ fmt.precision ∧ leastExp fmt ≤ e ∧ (m : ℚ) * 2 ^ e < 2 ^ (Fmt.emax fmt + 1) := by
  have hlt : magnitude a < fmt.infMagnitude :=
    magnitude_lt_of_finiteValue (x := (if neg then -1 else 1) * (m : ℚ) * 2 ^ e) (by rw [finiteValue, h])
  have hval := magnitudeValue_strictMono fmt hlt
  rw [magnitudeValue_infMagnitude, magnitudeValue] at hval
  rw [unpack_of_lt hlt] at h
  cases h
  exact ⟨(significand_bounds fmt _).1, by omega, hval⟩

/-! ### Quotients (R420) -/

/-- The remainder of a division is the rest that its quotient leaves out. -/
theorem isRest_mod (n : Nat) {d : Nat} (hd : d ≠ 0) : IsRest (n % d != 0) ((n % d : Nat) / d : ℝ) := by
  have hpos : (0 : ℝ) < d := by exact_mod_cast Nat.pos_of_ne_zero hd
  refine ⟨by positivity, ?_, ?_⟩
  · rw [div_lt_one hpos]
    exact_mod_cast Nat.mod_lt n (Nat.pos_of_ne_zero hd)
  · simp [hd]

/-- The quotient of two nonzero numbers is rounded once (R420). -/
theorem divFinite_correctlyRounded (neg : Bool) {ma mb : Nat} (ea eb : Int) (ha : ma ≠ 0) (hb : mb ≠ 0)
    (hlt : mb < 2 ^ fmt.precision) :
    CorrectlyRounded fmt rm (withNeg neg ((ma : ℝ) / mb * 2 ^ (ea - eb))) (divFinite fmt rm neg ma ea mb eb) := by
  have hbig : 2 ^ fmt.precision ≤ ma * 2 ^ (2 * fmt.precision + 2) / mb := by
    rw [Nat.le_div_iff_mul_le (Nat.pos_of_ne_zero hb)]
    calc 2 ^ fmt.precision * mb ≤ 2 ^ fmt.precision * 2 ^ fmt.precision := Nat.mul_le_mul_left _ hlt.le
      _ = 1 * 2 ^ (2 * fmt.precision) := by rw [one_mul, two_mul, pow_add]
      _ ≤ ma * 2 ^ (2 * fmt.precision + 2) :=
        Nat.mul_le_mul (Nat.pos_of_ne_zero ha) (Nat.pow_le_pow_right (by decide) (by omega))
  have hne : ma * 2 ^ (2 * fmt.precision + 2) / mb ≠ 0 := (Nat.two_pow_pos _).trans_le hbig |>.ne'
  have hx : (ma : ℝ) / mb * 2 ^ (ea - eb) = ((ma * 2 ^ (2 * fmt.precision + 2) / mb : Nat) +
      ((ma * 2 ^ (2 * fmt.precision + 2) % mb : Nat) / mb : ℝ)) *
        2 ^ (ea - eb - (2 * fmt.precision + 2 : Nat)) := by
    have hmb : (mb : ℝ) ≠ 0 := by exact_mod_cast hb
    have hdiv : (ma : ℝ) * 2 ^ (2 * fmt.precision + 2) = (ma * 2 ^ (2 * fmt.precision + 2) / mb : Nat) * mb +
        (ma * 2 ^ (2 * fmt.precision + 2) % mb : Nat) := by
      exact_mod_cast (Nat.div_add_mod' (ma * 2 ^ (2 * fmt.precision + 2)) mb).symm
    rw [zpow_sub₀ two_ne_zero (ea - eb), zpow_natCast]
    field_simp
    linear_combination hdiv
  rw [hx]
  exact round_correctlyRounded hne (isRest_mod _ hb) fun _ => (Nat.le_log2 hne).2 hbig

theorem fdiv_rounds {x y : ℚ} (hx : finiteValue a = some x) (hy : finiteValue b = some y) (hx0 : x ≠ 0) (hy0 : y ≠ 0) :
    CorrectlyRounded fmt rm ((x / y : ℚ) : ℝ) (fdiv a b rm) := by
  obtain ⟨na, ma, ea, ha, rfl⟩ := finiteValue_eq_some hx
  obtain ⟨nb, mb, eb, hb, rfl⟩ := finiteValue_eq_some hy
  have hma : ma ≠ 0 := mt number_eq_zero.2 hx0
  have hmb : mb ≠ 0 := mt number_eq_zero.2 hy0
  have hdiv : fdiv a b rm = divFinite fmt rm (na ^^ nb) ma ea mb eb := by simp [fdiv, ha, hb, hma, hmb]
  have hq : (((if na then -1 else 1) * (ma : ℚ) * 2 ^ ea / ((if nb then -1 else 1) * (mb : ℚ) * 2 ^ eb) : ℚ) : ℝ) =
      withNeg (na ^^ nb) ((ma : ℝ) / mb * 2 ^ (ea - eb)) := by
    rw [zpow_sub₀ two_ne_zero]
    cases na <;> cases nb <;> simp [withNeg] <;> ring
  rw [hdiv, hq]
  exact divFinite_correctlyRounded _ ea eb hma hmb (unpack_fin_bounds hb).1

/-! ### Square roots (R421) -/

/-- Each step of the root keeps it between the bits found and the bits to come. -/
theorem isqrtFrom_bounds {n : Nat} (i : Nat) {r : Nat} (hlo : r * r ≤ n) (hhi : n < (r + 2 ^ i) * (r + 2 ^ i)) :
    isqrtFrom n i r * isqrtFrom n i r ≤ n ∧ n < (isqrtFrom n i r + 1) * (isqrtFrom n i r + 1) := by
  induction i generalizing r with
  | zero => exact ⟨hlo, hhi⟩
  | succ i ih =>
    rw [isqrtFrom]
    have hdouble : r + 2 ^ i + 2 ^ i = r + 2 ^ (i + 1) := by rw [pow_succ]; omega
    split
    · next h => exact ih h (by rwa [hdouble])
    · next h => exact ih hlo (not_le.1 h)

theorem isqrt_eq_sqrt (n : Nat) : isqrt n = Nat.sqrt n := by
  have hhi : n < (0 + 2 ^ (Nat.log2 n / 2 + 1)) * (0 + 2 ^ (Nat.log2 n / 2 + 1)) := by
    calc n < 2 ^ (Nat.log2 n + 1) := Nat.lt_log2_self
      _ ≤ 2 ^ ((Nat.log2 n / 2 + 1) + (Nat.log2 n / 2 + 1)) := Nat.pow_le_pow_right (by decide) (by omega)
      _ = _ := by rw [pow_add, zero_add]
  exact Nat.eq_sqrt.2 (isqrtFrom_bounds _ (Nat.zero_le n) hhi)

/-- What a root's integer part leaves out. -/
theorem isRest_sqrt (n : Nat) : IsRest (isqrt n * isqrt n != n) (Real.sqrt n - isqrt n) := by
  rw [isqrt_eq_sqrt]
  refine ⟨sub_nonneg.2 Real.nat_sqrt_le_real_sqrt, ?_, ?_⟩
  · have := Real.real_sqrt_lt_nat_sqrt_succ (a := n)
    linarith
  · rw [bne_eq_false_iff_eq, sub_eq_zero, Real.sqrt_eq_iff_mul_self_eq (by positivity) (by positivity)]
    exact_mod_cast eq_comm

/-- The root of a positive number is rounded once (R421). -/
theorem sqrtFinite_correctlyRounded {m : Nat} (e : Int) (hm : m ≠ 0) :
    CorrectlyRounded fmt rm (Real.sqrt ((m : ℝ) * 2 ^ e)) (sqrtFinite fmt rm m e) := by
  have heven : ∃ j : Int, e - (2 * fmt.precision + 4 + (e % 2).toNat : Nat) = 2 * j :=
    ⟨(e - (2 * fmt.precision + 4 + (e % 2).toNat : Nat)) / 2, by omega⟩
  simp only [sqrtFinite]
  generalize hk : 2 * fmt.precision + 4 + (e % 2).toNat = k at heven ⊢
  obtain ⟨j, hj⟩ := heven
  have hbig : 2 ^ fmt.precision ≤ isqrt (m * 2 ^ k) := by
    rw [isqrt_eq_sqrt, Nat.le_sqrt, ← pow_add]
    calc 2 ^ (fmt.precision + fmt.precision) ≤ 2 ^ k := Nat.pow_le_pow_right (by decide) (by omega)
      _ ≤ m * 2 ^ k := Nat.le_mul_of_pos_left _ (Nat.pos_of_ne_zero hm)
  have hne : isqrt (m * 2 ^ k) ≠ 0 := (Nat.two_pow_pos _).trans_le hbig |>.ne'
  have hx : Real.sqrt ((m : ℝ) * 2 ^ e) = withNeg false
      ((isqrt (m * 2 ^ k) + (Real.sqrt (m * 2 ^ k : Nat) - isqrt (m * 2 ^ k))) * 2 ^ ((e - k) / 2)) := by
    have hsplit : (m : ℝ) * 2 ^ e = (m * 2 ^ k : Nat) * (2 ^ j) ^ 2 := by
      have : e = k + (j + j) := by omega
      rw [this, zpow_add₀ two_ne_zero, zpow_add₀ two_ne_zero, zpow_natCast]
      push_cast; ring
    rw [add_sub_cancel, hj, Int.mul_ediv_cancel_left _ two_ne_zero, hsplit, Real.sqrt_mul (by positivity),
      Real.sqrt_sq (by positivity)]
    rfl
  rw [hx]
  exact round_correctlyRounded hne (isRest_sqrt _) fun _ => (Nat.le_log2 hne).2 hbig

theorem fsqrt_rounds {x : ℚ} (hx : finiteValue a = some x) (hpos : 0 < x) :
    CorrectlyRounded fmt rm (Real.sqrt (x : ℝ)) (fsqrt a rm) := by
  obtain ⟨neg, m, e, ha, rfl⟩ := finiteValue_eq_some hx
  have hm : m ≠ 0 := mt number_eq_zero.2 hpos.ne'
  obtain rfl : neg = false := by
    have h0 : (0 : ℚ) ≤ m * 2 ^ e := by positivity
    cases neg
    · rfl
    · simp only [if_true, neg_mul, one_mul] at hpos
      linarith
  have hsqrt : fsqrt a rm = sqrtFinite fmt rm m e := by simp [fsqrt, ha, hm]
  have hval : (((if false then -1 else 1) * (m : ℚ) * 2 ^ e : ℚ) : ℝ) = (m : ℝ) * 2 ^ e := by simp
  rw [hsqrt, hval]
  exact sqrtFinite_correctlyRounded e hm

/-- Settles O45: a quotient is `round` of its integer part with the remainder as rest, a root that of its integer
part. -/
theorem quotientsAndRootsRound : Obligations.QuotientsAndRootsRound := by
  intro fmt rm a b x y hx hy
  exact ⟨fdiv_rounds hx hy, fsqrt_rounds hx⟩

/-! ### Exact results (R430, R431) -/

@[simp] theorem finiteValue_zeroOf (fmt : Fmt) (neg : Bool) : finiteValue (zeroOf fmt neg) = some 0 := by
  rw [zeroOf, finiteValue_pack (infMagnitude_pos fmt), magnitudeValue_zero, mul_zero]

/-- Nothing is lost where the quantum is no greater than the least bit of the mantissa. -/
theorem quantizeAt_exact (rm : RoundingMode) (neg : Bool) (m : Nat) {e quantum : Int} (h : quantum ≤ e) :
    (quantizeAt rm neg m e false quantum).2 = false := by
  have h0 : (quantum - e).toNat = 0 := by omega
  simp [quantizeAt, quantize, tailOf, h0]

/-- A number with at most p significant bits, neither too small nor too great for the format, is given back (R430,
R431). -/
theorem round_exact (rm : RoundingMode) (neg : Bool) {m : Nat} {e : Int} (hm : m ≠ 0) (hp : m < 2 ^ fmt.precision)
    (he : leastExp fmt ≤ e) (hlt : (m : ℚ) * 2 ^ e < 2 ^ (Fmt.emax fmt + 1)) :
    finiteValue (round fmt rm neg m e false).1 = some ((if neg then -1 else 1) * (m : ℚ) * 2 ^ e) ∧
      (round fmt rm neg m e false).2 = noFlags := by
  have hlog : Nat.log2 m < fmt.fracBits + 1 := (Nat.log2_lt hm).2 hp
  have hexact : (roundUnits fmt rm neg m e false).2 = false :=
    quantizeAt_exact rm neg m (by rw [roundQuantum]; omega)
  have hunits : ((roundUnits fmt rm neg m e false).1 : ℚ) = (m + 0) * 2 ^ (e - roundQuantum fmt m e) := by
    by_contra hne
    have := (quantizeAt_rounds rm neg isRest_false nofun).2.2 hne
    exact Bool.false_ne_true (hexact.symm.trans this)
  have hval : magnitudeValue fmt (roundMagnitude fmt rm neg m e false) = m * 2 ^ e := by
    rw [magnitudeValue_roundMagnitude hm isRest_false nofun, hunits, add_zero, mul_assoc, ← zpow_add₀ two_ne_zero,
      sub_add_cancel]
  have hfin : roundMagnitude fmt rm neg m e false < fmt.infMagnitude := by
    rw [← (magnitudeValue_strictMono fmt).lt_iff_lt, hval, magnitudeValue_infMagnitude]
    exact hlt
  rw [round_eq, if_neg (not_le.2 hfin), hexact]
  refine ⟨?_, by simp [flagIf, noFlags]⟩
  rw [finiteValue_pack hfin, hval, mul_assoc]

/-! ### Conversions from an integer (R430) -/

theorem ofInteger_rounds (fmt : Fmt) (rm : RoundingMode) {k : Int} (hk : k ≠ 0) :
    CorrectlyRounded fmt rm (k : ℝ) (ofInteger fmt k rm) := by
  have h := round_int (fmt := fmt) (rm := rm) 0 hk
  rw [zpow_zero, mul_one, Rat.cast_intCast] at h
  rwa [ofInteger, if_neg hk]

theorem ofInteger_zero (fmt : Fmt) (rm : RoundingMode) : ofInteger fmt 0 rm = (0#fmt.width, noFlags) := by
  simp [ofInteger, quiet, zeroOf, pack]

/-- Double and quad hold every 32-bit integer. -/
theorem ofInteger_exact (hfmt : fmt ≠ .s) (rm : RoundingMode) {k : Int} (hk : k.natAbs < 2 ^ 32) :
    finiteValue (ofInteger fmt k rm).1 = some (k : ℚ) ∧ (ofInteger fmt k rm).2 = noFlags := by
  by_cases h0 : k = 0
  · rw [h0, ofInteger, if_pos rfl]
    exact ⟨by simp [quiet], rfl⟩
  · obtain ⟨hprec, hleast, hemax⟩ : 32 ≤ fmt.precision ∧ leastExp fmt ≤ 0 ∧ 32 ≤ Fmt.emax fmt + 1 := by
      cases fmt
      · exact absurd rfl hfmt
      · decide
      · decide
    have hlt : ((k.natAbs : Nat) : ℚ) * 2 ^ (0 : Int) < 2 ^ (Fmt.emax fmt + 1) := by
      rw [zpow_zero, mul_one]
      calc ((k.natAbs : Nat) : ℚ) < 2 ^ (32 : Int) := by exact_mod_cast hk
        _ ≤ 2 ^ (Fmt.emax fmt + 1) := zpow_le_zpow_right₀ one_le_two hemax
    have h := round_exact rm (decide (k < 0)) (Int.natAbs_ne_zero.2 h0)
      (hk.trans_le (Nat.pow_le_pow_right (by decide) hprec)) hleast hlt
    rw [ofInteger, if_neg h0, intCast_eq_number k]
    simpa using h

/-! ### Conversions between formats (R431) -/

theorem fcvtFmt_of_fin {src : Fmt} {v : BitVec src.width} {neg : Bool} {m : Nat} {e : Int}
    (h : unpack v = .fin neg m e) :
    fcvtFmt src fmt v rm = if m = 0 then quiet (zeroOf fmt neg) else round fmt rm neg m e false := by
  simp [fcvtFmt, h]

/-- A format at least as wide has as much precision and range. -/
theorem wider_holds {src dst : Fmt} (h : src.width ≤ dst.width) :
    src.precision ≤ dst.precision ∧ leastExp dst ≤ leastExp src ∧ Fmt.emax src ≤ Fmt.emax dst := by
  revert h
  cases src <;> cases dst <;> decide

/-- A format at least as wide holds every number of the narrower one. -/
theorem fcvtFmt_exact {src dst : Fmt} (hw : src.width ≤ dst.width) {v : BitVec src.width} {x : ℚ}
    (hx : finiteValue v = some x) :
    finiteValue (fcvtFmt src dst v rm).1 = some x ∧ (fcvtFmt src dst v rm).2 = noFlags := by
  obtain ⟨neg, m, e, hv, rfl⟩ := finiteValue_eq_some hx
  obtain ⟨hprec, hleast, hemax⟩ := wider_holds hw
  obtain ⟨hp, he, hlt⟩ := unpack_fin_bounds hv
  rw [fcvtFmt_of_fin hv]
  split
  · next hm => exact ⟨by simp [quiet, hm], rfl⟩
  · next hm =>
    exact round_exact rm neg hm (hp.trans_le (Nat.pow_le_pow_right (by decide) hprec)) (hleast.trans he)
      (hlt.trans_le (zpow_le_zpow_right₀ one_le_two (by omega)))

/-- Settles O46: a conversion is `round` of the number, which gives it back where the format holds it
(`round_exact`). -/
theorem conversionsRound : Obligations.ConversionsRound := by
  refine ⟨fun fmt rm v => ⟨fun hv => ⟨?_, ?_⟩, ?_, fun hfmt => ?_⟩, fun src dst rm a => ⟨fun x hx hx0 => ?_,
    fun x hx hw => fcvtFmt_exact hw hx, fun hx => ?_, fun neg h => by simp [fcvtFmt, h, quiet],
    fun s h => by simp [fcvtFmt, h, nanResult, flagIf]⟩⟩
  · exact ofInteger_rounds fmt rm fun h => hv (BitVec.eq_of_toInt_eq h)
  · have hne : (v.toNat : Int) ≠ 0 := by simpa [BitVec.toNat_eq] using hv
    simpa [fcvtOfWu] using ofInteger_rounds fmt rm hne
  · rintro rfl
    exact ⟨ofInteger_zero fmt rm, ofInteger_zero fmt rm⟩
  · have hlt := v.isLt
    obtain ⟨h1, h2⟩ := ofInteger_exact hfmt rm (k := v.toInt) (by rw [BitVec.toInt_eq_toNat_cond]; split <;> omega)
    obtain ⟨h3, h4⟩ := ofInteger_exact hfmt rm (k := v.toNat) (by omega)
    exact ⟨h1, h2, by simpa [fcvtOfWu] using h3, h4⟩
  · obtain ⟨neg, m, e, ha, rfl⟩ := finiteValue_eq_some hx
    have hm : m ≠ 0 := mt number_eq_zero.2 hx0
    rw [fcvtFmt_of_fin ha, if_neg hm]
    exact round_number neg e hm
  · obtain ⟨neg, m, e, ha, h0⟩ := finiteValue_eq_some hx
    rw [fcvtFmt_of_fin ha, if_pos (number_eq_zero.1 h0.symm), signOf_of_unpack_fin ha, quiet]

end Sys2Proof.Machine
end

section
/-! SUPPORT. The special operands of arithmetic: which results are the canonical NaN, and which flags come with which
results (R412 to R415, R417 to R421, R423, R431). -/
namespace Sys2Proof.Machine

variable {fmt : Fmt} {rm : RoundingMode} {a b c v : BitVec fmt.width}

/-! ### Results of numbers and results of NaNs -/

/-- The result is the canonical NaN, with NV or without, or a number or infinity with neither NV nor DZ. -/
def NanOrNumber (fmt : Fmt) (r : FpResult fmt) : Prop :=
  (∃ invalid, r = nanResult fmt invalid) ∨
    (unpack r.1).isNaN = false ∧ r.2 &&& flagNV = 0#5 ∧ r.2 &&& flagDZ = 0#5

/-! The flags that are neither NV nor DZ, and those of a NaN. -/

theorem noFlags_valid : noFlags &&& flagNV = 0#5 ∧ noFlags &&& flagDZ = 0#5 := by decide

theorem overflow_valid : (flagOF ||| flagNX) &&& flagNV = 0#5 ∧ (flagOF ||| flagNX) &&& flagDZ = 0#5 := by decide

theorem inexact_valid : ∀ tiny inexact : Bool, (flagIf tiny flagUF ||| flagIf inexact flagNX) &&& flagNV = 0#5 ∧
    (flagIf tiny flagUF ||| flagIf inexact flagNX) &&& flagDZ = 0#5 := by decide

theorem invalid_no_divideByZero : ∀ invalid : Bool, flagIf invalid flagNV &&& flagDZ = 0#5 := by decide

theorem divideByZero_flags : flagDZ &&& flagNV = 0#5 ∧ flagDZ &&& flagDZ ≠ 0#5 := by decide

theorem nanOrNumber_nanResult (invalid : Bool) : NanOrNumber fmt (nanResult fmt invalid) := .inl ⟨invalid, rfl⟩

theorem isNaN_pack {neg : Bool} {mag : Nat} (h : mag ≤ fmt.infMagnitude) :
    (unpack (pack fmt neg mag)).isNaN = false := by
  rw [isNaN_unpack, magnitude_pack (h.trans_lt (infMagnitude_lt fmt))]
  simpa using h

theorem nanOrNumber_quiet (h : (unpack v).isNaN = false) : NanOrNumber fmt (quiet v) := .inr ⟨h, noFlags_valid⟩

theorem nanOrNumber_infOf (neg : Bool) : NanOrNumber fmt (quiet (infOf fmt neg)) :=
  nanOrNumber_quiet (isNaN_pack le_rfl)

theorem nanOrNumber_zeroOf (neg : Bool) : NanOrNumber fmt (quiet (zeroOf fmt neg)) :=
  nanOrNumber_quiet (isNaN_pack (Nat.zero_le _))

/-- `round` gives a number or an infinity, with OF, UF and NX at most. -/
theorem nanOrNumber_round (neg : Bool) (m : Nat) (e : Int) (sticky : Bool) :
    NanOrNumber fmt (round fmt rm neg m e sticky) := by
  right
  rw [round_eq]
  split
  · refine ⟨isNaN_pack ?_, overflow_valid⟩
    split
    · exact le_rfl
    · exact Nat.sub_le _ _
  · next h => exact ⟨isNaN_pack (not_le.1 h).le, inexact_valid _ _⟩

theorem nanOrNumber_addFinite (nx ny : Bool) (mx my : Nat) (ex ey : Int) :
    NanOrNumber fmt (addFinite fmt rm nx mx ex ny my ey) := by
  unfold addFinite
  simp only
  split
  · exact nanOrNumber_zeroOf _
  · exact nanOrNumber_round _ _ _ _

theorem nanOrNumber_addNum (x y : Num) : NanOrNumber fmt (addNum fmt rm x y) := by
  unfold addNum
  split
  · split
    · exact nanOrNumber_infOf _
    · exact nanOrNumber_nanResult _
  · exact nanOrNumber_infOf _
  · exact nanOrNumber_infOf _
  · exact nanOrNumber_addFinite _ _ _ _ _ _
  · exact nanOrNumber_nanResult _

theorem nanOrNumber_fadd (a b : BitVec fmt.width) : NanOrNumber fmt (fadd a b rm) := by
  unfold fadd
  simp only
  split
  · exact nanOrNumber_nanResult _
  · exact nanOrNumber_addNum _ _

theorem nanOrNumber_fmul (a b : BitVec fmt.width) : NanOrNumber fmt (fmul a b rm) := by
  unfold fmul
  split
  · exact nanOrNumber_nanResult _
  · exact nanOrNumber_nanResult _
  · split
    · exact nanOrNumber_nanResult _
    · exact nanOrNumber_infOf _
  · split
    · exact nanOrNumber_nanResult _
    · exact nanOrNumber_infOf _
  · split
    · exact nanOrNumber_zeroOf _
    · exact nanOrNumber_round _ _ _ _

theorem nanOrNumber_fsqrt (a : BitVec fmt.width) : NanOrNumber fmt (fsqrt a rm) := by
  unfold fsqrt
  split
  · exact nanOrNumber_nanResult _
  · next h =>
    split
    · exact nanOrNumber_nanResult _
    · exact nanOrNumber_quiet (by rw [h]; rfl)
  · next h =>
    split
    · exact nanOrNumber_quiet (by rw [h]; rfl)
    · split
      · exact nanOrNumber_nanResult _
      · exact nanOrNumber_round _ _ _ _

theorem nanOrNumber_ffma (negP negC : Bool) (a b c : BitVec fmt.width) :
    NanOrNumber fmt (ffma negP negC a b c rm) := by
  unfold ffma
  simp only
  split
  · exact nanOrNumber_nanResult _
  · split
    · exact nanOrNumber_nanResult _
    · exact nanOrNumber_addNum _ _

theorem nanOrNumber_fcvtFmt {src : Fmt} (z : BitVec src.width) : NanOrNumber fmt (fcvtFmt src fmt z rm) := by
  unfold fcvtFmt
  split
  · exact nanOrNumber_nanResult _
  · exact nanOrNumber_infOf _
  · split
    · exact nanOrNumber_zeroOf _
    · exact nanOrNumber_round _ _ _ _

/-- What the statement asks of a result in every case (R413, R414). -/
theorem NanOrNumber.nan_is_canonical {r : FpResult fmt} (h : NanOrNumber fmt r) :
    ((unpack r.1).isNaN = true → r.1 = canonicalNaN fmt) ∧ (r.2 &&& flagNV ≠ 0#5 → r = (canonicalNaN fmt, flagNV)) := by
  rcases h with ⟨invalid, rfl⟩ | ⟨hnum, hnv, -⟩
  · refine ⟨fun _ => rfl, fun h => ?_⟩
    cases invalid
    · exact absurd noFlags_valid.1 h
    · rfl
  · exact ⟨fun h => absurd (hnum.symm.trans h) Bool.false_ne_true, fun h => absurd hnv h⟩

theorem NanOrNumber.no_divideByZero {r : FpResult fmt} (h : NanOrNumber fmt r) : r.2 &&& flagDZ = 0#5 := by
  rcases h with ⟨invalid, rfl⟩ | ⟨-, -, hdz⟩
  · exact invalid_no_divideByZero invalid
  · exact hdz

/-! ### Operands by their class -/

/-- The operand is a finite number that is not zero. -/
theorem finiteValue_ne_zero :
    (∃ q : ℚ, finiteValue v = some q ∧ q ≠ 0) ↔ ∃ neg m e, unpack v = .fin neg m e ∧ m ≠ 0 := by
  constructor
  · rintro ⟨q, hq, h0⟩
    obtain ⟨neg, m, e, hv, rfl⟩ := finiteValue_eq_some hq
    exact ⟨neg, m, e, hv, mt number_eq_zero.2 h0⟩
  · rintro ⟨neg, m, e, hv, hm⟩
    exact ⟨(if neg then -1 else 1) * (m : ℚ) * 2 ^ e, by simp only [finiteValue, hv], mt number_eq_zero.1 hm⟩

theorem unpack_of_isInf (h : (unpack v).isInf = true) : unpack v = .inf (signOf v) := by
  cases hv : unpack v with
  | inf neg => rw [signOf_of_unpack_inf hv]
  | nan s => rw [hv] at h; cases h
  | fin neg m e => rw [hv] at h; cases h

/-- A finite operand is its sign, a mantissa that is zero where the value is, and an exponent. -/
theorem unpack_of_finiteValue {x : ℚ} (h : finiteValue v = some x) :
    ∃ m e, unpack v = .fin (signOf v) m e ∧ (x = 0 ↔ m = 0) := by
  obtain ⟨neg, m, e, hv, rfl⟩ := finiteValue_eq_some h
  obtain rfl := signOf_of_unpack_fin hv
  exact ⟨m, e, hv, number_eq_zero⟩

/-- A quotient is such a result too, unless a finite number that is not zero is divided by a zero (R415). -/
theorem fdiv_cases (a b : BitVec fmt.width) : NanOrNumber fmt (fdiv a b rm) ∧
      ¬ ((∃ v : ℚ, finiteValue a = some v ∧ v ≠ 0) ∧ finiteValue b = some 0) ∨
    fdiv a b rm = (infOf fmt (signOf a ^^ signOf b), flagDZ) ∧
      (∃ v : ℚ, finiteValue a = some v ∧ v ≠ 0) ∧ finiteValue b = some 0 := by
  rw [finiteValue_ne_zero, finiteValue_eq_zero]
  unfold fdiv
  cases ha : unpack a with
  | nan s => exact .inl ⟨nanOrNumber_nanResult _, by simp⟩
  | inf na =>
    cases hb : unpack b with
    | nan s => exact .inl ⟨nanOrNumber_nanResult _, by simp⟩
    | inf nb => exact .inl ⟨nanOrNumber_nanResult _, by simp⟩
    | fin nb mb eb => exact .inl ⟨nanOrNumber_infOf _, by simp⟩
  | fin na ma ea =>
    cases hb : unpack b with
    | nan s => exact .inl ⟨nanOrNumber_nanResult _, by simp [Num.isZero]⟩
    | inf nb => exact .inl ⟨nanOrNumber_zeroOf _, by simp [Num.isZero]⟩
    | fin nb mb eb =>
      simp only
      split_ifs with hmb hma hma
      · exact .inl ⟨nanOrNumber_nanResult _, by simp [hma]⟩
      · rw [signOf_of_unpack_fin ha, signOf_of_unpack_fin hb]
        exact .inr ⟨rfl, ⟨_, _, _, rfl, hma⟩, by simp [Num.isZero, hmb]⟩
      · exact .inl ⟨nanOrNumber_zeroOf _, by simp [Num.isZero, hmb]⟩
      · exact .inl ⟨nanOrNumber_round _ _ _ _, by simp [Num.isZero, hmb]⟩

theorem fdiv_nan_is_canonical (a b : BitVec fmt.width) :
    ((unpack (fdiv a b rm).1).isNaN = true → (fdiv a b rm).1 = canonicalNaN fmt) ∧
      ((fdiv a b rm).2 &&& flagNV ≠ 0#5 → fdiv a b rm = (canonicalNaN fmt, flagNV)) := by
  rcases fdiv_cases (rm := rm) a b with ⟨h, -⟩ | ⟨h, -⟩
  · exact h.nan_is_canonical
  · rw [h]
    exact ⟨fun hn => absurd ((isNaN_pack le_rfl).symm.trans hn) Bool.false_ne_true,
      fun hf => absurd divideByZero_flags.1 hf⟩

/-- DZ comes exactly from the division of a finite nonzero number by a zero, and with an infinity (R415). -/
theorem fdiv_divideByZero (a b : BitVec fmt.width) :
    ((fdiv a b rm).2 &&& flagDZ ≠ 0#5 ↔ (∃ v : ℚ, finiteValue a = some v ∧ v ≠ 0) ∧ finiteValue b = some 0) ∧
      ((fdiv a b rm).2 &&& flagDZ ≠ 0#5 → fdiv a b rm = (infOf fmt (signOf a ^^ signOf b), flagDZ)) := by
  rcases fdiv_cases (rm := rm) a b with ⟨h, hno⟩ | ⟨h, hyes⟩
  · have hdz := h.no_divideByZero
    exact ⟨iff_of_false (fun hf => hf hdz) hno, fun hf => absurd hdz hf⟩
  · have hdz : (fdiv a b rm).2 &&& flagDZ ≠ 0#5 := by rw [h]; exact divideByZero_flags.2
    exact ⟨iff_of_true hdz hyes, fun _ => h⟩

/-! ### NaN operands (R413, R414) -/

theorem isNaN_negIf (x : Num) (c : Bool) : (x.negIf c).isNaN = x.isNaN := by cases x <;> rfl

theorem isSNaN_negIf (x : Num) (c : Bool) : (x.negIf c).isSNaN = x.isSNaN := by cases x <;> rfl

theorem fadd_nan (h : ((unpack a).isNaN || (unpack b).isNaN) = true) :
    fadd a b rm = nanResult fmt ((unpack a).isSNaN || (unpack b).isSNaN) := by
  rw [fadd, if_pos h]

theorem fsub_nan (h : ((unpack a).isNaN || (unpack b).isNaN) = true) :
    fsub a b rm = nanResult fmt ((unpack a).isSNaN || (unpack b).isSNaN) := by
  have := fadd_nan (a := a) (b := flipSign b) (rm := rm)
  rw [unpack_flipSign, isNaN_negIf, isSNaN_negIf] at this
  exact this h

/-- The first NaN of two operands. -/
theorem nan_cases {x y : Num} (h : (x.isNaN || y.isNaN) = true) :
    (∃ s, x = .nan s) ∨ x.isNaN = false ∧ ∃ s, y = .nan s := by
  cases x with
  | nan s => exact .inl ⟨s, rfl⟩
  | inf _ | fin _ _ _ =>
    cases y with
    | nan s => exact .inr ⟨rfl, s, rfl⟩
    | inf _ | fin _ _ _ => cases h

theorem fmul_nan (h : ((unpack a).isNaN || (unpack b).isNaN) = true) :
    fmul a b rm = nanResult fmt ((unpack a).isSNaN || (unpack b).isSNaN) := by
  rcases nan_cases h with ⟨s, ha⟩ | ⟨hna, s, hb⟩
  · simp only [fmul, ha, Num.isSNaN]
  · rw [isSNaN_of_not_isNaN hna, fmul, hb]
    cases ha : unpack a with
    | nan t => rw [ha] at hna; cases hna
    | inf _ | fin _ _ _ => rfl

theorem fdiv_nan (h : ((unpack a).isNaN || (unpack b).isNaN) = true) :
    fdiv a b rm = nanResult fmt ((unpack a).isSNaN || (unpack b).isSNaN) := by
  rcases nan_cases h with ⟨s, ha⟩ | ⟨hna, s, hb⟩
  · simp only [fdiv, ha, Num.isSNaN]
  · rw [isSNaN_of_not_isNaN hna, fdiv, hb]
    cases ha : unpack a with
    | nan t => rw [ha] at hna; cases hna
    | inf _ | fin _ _ _ => rfl

theorem fsqrt_nan (h : (unpack a).isNaN = true) : fsqrt a rm = nanResult fmt (unpack a).isSNaN := by
  cases ha : unpack a with
  | nan s => simp only [fsqrt, ha, Num.isSNaN]
  | inf _ | fin _ _ _ => rw [ha] at h; cases h

theorem fcvtFmt_nan {src : Fmt} {z : BitVec src.width} (h : (unpack z).isNaN = true) :
    fcvtFmt src fmt z rm = nanResult fmt (unpack z).isSNaN := by
  cases hz : unpack z with
  | nan s => simp only [fcvtFmt, hz, Num.isSNaN]
  | inf _ | fin _ _ _ => rw [hz] at h; cases h

/-! ### Infinite operands (R417 to R420) -/

/-- Two infinities. -/
theorem arith_inf_inf (ha : unpack a = .inf (signOf a)) (hb : unpack b = .inf (signOf b)) :
    fadd a b rm = (if signOf a = signOf b then quiet a else nanResult fmt true) ∧
    fsub a b rm = (if signOf a = signOf b then nanResult fmt true else quiet a) ∧
    fmul a b rm = quiet (infOf fmt (signOf a ^^ signOf b)) ∧ fdiv a b rm = nanResult fmt true := by
  have hinf := infOf_of_unpack ha
  refine ⟨?_, ?_, ?_, ?_⟩
  · simp [fadd, ha, hb, Num.isNaN, addNum, hinf]
  · simp only [fsub, fadd, unpack_flipSign, ha, hb, Num.negIf, Num.isNaN, addNum, hinf]
    cases signOf a <;> cases signOf b <;> rfl
  · simp [fmul, ha, hb, Num.isZero]
  · simp [fdiv, ha, hb]

/-- An infinity and a finite number. -/
theorem arith_inf_fin (ha : unpack a = .inf (signOf a)) {x : ℚ} (hx : finiteValue b = some x) :
    fadd a b rm = quiet a ∧ fsub a b rm = quiet a ∧
    fmul a b rm = (if x = 0 then nanResult fmt true else quiet (infOf fmt (signOf a ^^ signOf b))) ∧
    fdiv a b rm = quiet (infOf fmt (signOf a ^^ signOf b)) := by
  obtain ⟨m, e, hb, h0⟩ := unpack_of_finiteValue hx
  have hinf := infOf_of_unpack ha
  refine ⟨?_, ?_, ?_, ?_⟩
  · simp [fadd, ha, hb, Num.isNaN, addNum, hinf]
  · simp [fsub, fadd, unpack_flipSign, ha, hb, Num.negIf, Num.isNaN, addNum, hinf]
  · simp [fmul, ha, hb, Num.isZero, h0]
  · simp [fdiv, ha, hb]

/-- A finite number and an infinity. -/
theorem arith_fin_inf {x : ℚ} (hx : finiteValue a = some x) (hb : unpack b = .inf (signOf b)) :
    fadd a b rm = quiet b ∧ fsub a b rm = quiet (infOf fmt (!signOf b)) ∧
    fmul a b rm = (if x = 0 then nanResult fmt true else quiet (infOf fmt (signOf a ^^ signOf b))) ∧
    fdiv a b rm = quiet (zeroOf fmt (signOf a ^^ signOf b)) := by
  obtain ⟨m, e, ha, h0⟩ := unpack_of_finiteValue hx
  have hinf := infOf_of_unpack hb
  refine ⟨?_, ?_, ?_, ?_⟩
  · simp [fadd, ha, hb, Num.isNaN, addNum, hinf]
  · simp [fsub, fadd, unpack_flipSign, ha, hb, Num.negIf, Num.isNaN, addNum]
  · simp [fmul, ha, hb, Num.isZero, h0]
  · simp [fdiv, ha, hb]

/-! ### Quotients of zeros, and roots (R420, R421) -/

theorem fdiv_zero_left {y : ℚ} (ha : finiteValue a = some 0) (hy : finiteValue b = some y) :
    fdiv a b rm = if y = 0 then nanResult fmt true else quiet (zeroOf fmt (signOf a ^^ signOf b)) := by
  obtain ⟨ma, ea, ha, h0⟩ := unpack_of_finiteValue ha
  obtain ⟨mb, eb, hb, hb0⟩ := unpack_of_finiteValue hy
  simp [fdiv, ha, hb, h0.1 rfl, hb0]

theorem fsqrt_zero (ha : finiteValue a = some 0) : fsqrt a rm = quiet a := by
  obtain ⟨m, e, ha, h0⟩ := unpack_of_finiteValue ha
  simp [fsqrt, ha, h0.1 rfl]

theorem fsqrt_negative {x : ℚ} (hx : finiteValue a = some x) (hneg : x < 0) : fsqrt a rm = nanResult fmt true := by
  obtain ⟨neg, m, e, ha, rfl⟩ := finiteValue_eq_some hx
  have hm : m ≠ 0 := mt number_eq_zero.2 hneg.ne
  cases neg with
  | true => simp [fsqrt, ha, hm]
  | false =>
    have h0 : (0 : ℚ) ≤ m * 2 ^ e := by positivity
    simp only [Bool.false_eq_true, if_false, one_mul] at hneg
    exact absurd hneg (not_lt.2 h0)

theorem fsqrt_inf (ha : unpack a = .inf (signOf a)) :
    fsqrt a rm = if signOf a then nanResult fmt true else quiet a := by
  simp [fsqrt, ha]

/-! ### The fused operations (R423) -/

/-- Zero times infinity, whatever the addend. -/
theorem ffma_invalid (negP negC : Bool)
    (h : (unpack a).isInf = true ∧ finiteValue b = some 0 ∨ finiteValue a = some 0 ∧ (unpack b).isInf = true) :
    ffma negP negC a b c rm = nanResult fmt true := by
  rw [finiteValue_eq_zero, finiteValue_eq_zero] at h
  rw [ffma, if_pos (by simpa using h)]

theorem ffma_not_invalid (h1 : ¬ ((unpack a).isInf = true ∧ finiteValue b = some 0))
    (h2 : ¬ (finiteValue a = some 0 ∧ (unpack b).isInf = true)) :
    ¬ (((unpack a).isInf && (unpack b).isZero) || ((unpack a).isZero && (unpack b).isInf)) = true := by
  rw [finiteValue_eq_zero] at h1 h2
  simp only [Bool.or_eq_true, Bool.and_eq_true, not_or]
  exact ⟨h1, h2⟩

/-- Otherwise a NaN among the three operands. -/
theorem ffma_nan (negP negC : Bool) (h1 : ¬ ((unpack a).isInf = true ∧ finiteValue b = some 0))
    (h2 : ¬ (finiteValue a = some 0 ∧ (unpack b).isInf = true))
    (h : (unpack a).isNaN = true ∨ (unpack b).isNaN = true ∨ (unpack c).isNaN = true) :
    ffma negP negC a b c rm =
      nanResult fmt ((unpack a).isSNaN || (unpack b).isSNaN || (unpack c).isSNaN) := by
  rw [ffma, if_neg (ffma_not_invalid h1 h2), if_pos (by simpa [or_assoc] using h)]

/-- Otherwise the exact product and the addend are added. -/
theorem ffma_number (negP negC : Bool) (h1 : ¬ ((unpack a).isInf = true ∧ finiteValue b = some 0))
    (h2 : ¬ (finiteValue a = some 0 ∧ (unpack b).isInf = true))
    (ha : (unpack a).isNaN = false) (hb : (unpack b).isNaN = false) (hc : (unpack c).isNaN = false) :
    ffma negP negC a b c rm = addNum fmt rm ((mulNum (signOf a) (signOf b) (unpack a) (unpack b)).negIf negP)
      ((unpack c).negIf negC) := by
  rw [ffma, if_neg (ffma_not_invalid h1 h2), if_neg (by simp [ha, hb, hc])]

theorem mulNum_of_isInf {x y : Num} (h : x.isInf = true ∨ y.isInf = true) (na nb : Bool) :
    mulNum na nb x y = .inf (na ^^ nb) := by
  cases x with
  | nan _ | inf _ => rfl
  | fin _ _ _ =>
    cases y with
    | nan _ | inf _ => rfl
    | fin _ _ _ => simp [Num.isInf] at h

/-- An infinite product: infinity, unless an infinity of the other sign is added. -/
theorem ffma_infinite_product (negP negC : Bool) (ha : (unpack a).isNaN = false) (hb : (unpack b).isNaN = false)
    (h : (unpack a).isInf = true ∨ (unpack b).isInf = true) (ha0 : finiteValue a ≠ some 0)
    (hb0 : finiteValue b ≠ some 0) :
    let signP := signOf a ^^ signOf b ^^ negP
    let signC := signOf c ^^ negC
    ((unpack c).isInf = true → ffma negP negC a b c rm =
      (if signP = signC then quiet (infOf fmt signP) else nanResult fmt true)) ∧
    ∀ z : ℚ, finiteValue c = some z → ffma negP negC a b c rm = quiet (infOf fmt signP) := by
  intro signP signC
  have hsum := ffma_number (c := c) (rm := rm) negP negC (fun h => hb0 h.2) (fun h => ha0 h.1) ha hb
  rw [mulNum_of_isInf h] at hsum
  refine ⟨fun hc => ?_, fun z hz => ?_⟩
  · rw [unpack_of_isInf hc] at hsum
    exact hsum rfl
  · obtain ⟨m, e, hc, -⟩ := unpack_of_finiteValue hz
    rw [hc] at hsum
    exact hsum rfl

/-- A finite product and an infinity: the infinity. -/
theorem ffma_infinite_addend (negP negC : Bool) {x y : ℚ} (hx : finiteValue a = some x) (hy : finiteValue b = some y)
    (hc : (unpack c).isInf = true) : ffma negP negC a b c rm = quiet (infOf fmt (signOf c ^^ negC)) := by
  obtain ⟨ma, ea, ha, -⟩ := unpack_of_finiteValue hx
  obtain ⟨mb, eb, hb, -⟩ := unpack_of_finiteValue hy
  have hc := unpack_of_isInf hc
  rw [ffma_number negP negC (by simp [ha, Num.isInf]) (by simp [hb, Num.isInf]) (by simp [ha, Num.isNaN])
    (by simp [hb, Num.isNaN]) (by simp [hc, Num.isNaN]), ha, hb, hc]
  rfl

/-- Settles O40: every result is a `NanOrNumber` but the quotient that raises DZ (`fdiv_cases`), and each clause is one
of the lemmas above about a class of operands. -/
theorem fpExceptionalResults : Obligations.FpExceptionalResults := by
  intro fmt src a b c z rm negP negC x y nan inf zero sign
  refine ⟨fun r hr => ?_, fun r hr => ?_, (fdiv_divideByZero a b).1, (fdiv_divideByZero a b).2, fun h r hr => ?_,
    fsqrt_nan, fcvtFmt_nan, fun ha hb => arith_inf_inf (unpack_of_isInf ha) (unpack_of_isInf hb),
    fun v ha hv => arith_inf_fin (unpack_of_isInf ha) hv, fun v hv hb => arith_fin_inf hv (unpack_of_isInf hb),
    fun ha hb => fdiv_zero_left ha hb, fun v ha hv hne => (fdiv_zero_left ha hv).trans (if_neg hne), fsqrt_zero,
    fun v => fsqrt_negative, fun ha => fsqrt_inf (unpack_of_isInf ha), ffma_invalid negP negC, ffma_nan negP negC,
    ffma_infinite_product negP negC, fun v w hv hw hc => ffma_infinite_addend negP negC hv hw hc⟩
  · simp only [List.mem_cons, List.not_mem_nil, or_false] at hr
    rcases hr with rfl | rfl | rfl | rfl | rfl | rfl | rfl
    · exact (nanOrNumber_fadd a b).nan_is_canonical
    · exact (nanOrNumber_fadd a (flipSign b)).nan_is_canonical
    · exact (nanOrNumber_fmul a b).nan_is_canonical
    · exact fdiv_nan_is_canonical a b
    · exact (nanOrNumber_fsqrt a).nan_is_canonical
    · exact (nanOrNumber_ffma negP negC a b c).nan_is_canonical
    · exact (nanOrNumber_fcvtFmt z).nan_is_canonical
  · simp only [List.mem_cons, List.not_mem_nil, or_false] at hr
    rcases hr with rfl | rfl | rfl | rfl | rfl | rfl
    · exact (nanOrNumber_fadd a b).no_divideByZero
    · exact (nanOrNumber_fadd a (flipSign b)).no_divideByZero
    · exact (nanOrNumber_fmul a b).no_divideByZero
    · exact (nanOrNumber_fsqrt a).no_divideByZero
    · exact (nanOrNumber_ffma negP negC a b c).no_divideByZero
    · exact (nanOrNumber_fcvtFmt z).no_divideByZero
  · have hor : ((unpack a).isNaN || (unpack b).isNaN) = true := by simpa using h
    simp only [List.mem_cons, List.not_mem_nil, or_false] at hr
    rcases hr with rfl | rfl | rfl | rfl
    · exact fadd_nan hor
    · exact fsub_nan hor
    · exact fmul_nan hor
    · exact fdiv_nan hor

end Sys2Proof.Machine
end

section
/-! SUPPORT. The reserved encodings of the 16-bit space, quadrant by quadrant (48_compressed.md R604, R640). -/
namespace Sys2Proof

open Fields

variable {p : Parcel}

/-! ### Immediates that are zero -/

/-- A part of a field that is zero is zero. -/
theorem extractLsb'_of_zero {w i n j m : Nat} {v : BitVec w} (h : v.extractLsb' i n = 0#n) (hij : i ≤ j)
    (hend : j + m ≤ i + n) : v.extractLsb' j m = 0#m := by
  apply BitVec.eq_of_getLsbD_eq
  intro k hk
  have hbit := congrArg (fun b => b.getLsbD (j - i + k)) h
  have hin : j - i + k < n := by omega
  have hat : i + (j - i + k) = j + k := by omega
  simpa [BitVec.getLsbD_extractLsb', hin, hk, hat] using hbit

theorem immCIW_of_zero (h : p.extractLsb' 5 8 = 0#8) : immCIW p = 0#8 := by
  rw [immCIW, extractLsb'_of_zero h (j := 7) (m := 4) (by decide) (by decide),
    extractLsb'_of_zero h (j := 11) (m := 2) (by decide) (by decide),
    extractLsb'_of_zero h (j := 5) (m := 1) (by decide) (by decide),
    extractLsb'_of_zero h (j := 6) (m := 1) (by decide) (by decide)]
  rfl

theorem immCI_of_zero (hb : cBit12 p = 0#1) (hl : cRs2 p = 0#5) : immCI p = 0#6 :=
  congrArg₂ (fun (b : BitVec 1) (l : BitVec 5) => b ++ l) hb hl

theorem immCI16SP_of_zero (hb : cBit12 p = 0#1) (hl : cRs2 p = 0#5) : immCI16SP p = 0#6 := by
  have hb : p.extractLsb' 12 1 = 0#1 := hb
  rw [immCI16SP, hb, extractLsb'_of_zero hl (j := 3) (m := 2) (by decide) (by decide),
    extractLsb'_of_zero hl (j := 5) (m := 1) (by decide) (by decide),
    extractLsb'_of_zero hl (j := 2) (m := 1) (by decide) (by decide),
    extractLsb'_of_zero hl (j := 6) (m := 1) (by decide) (by decide)]
  rfl

/-! ### The quadrants -/

theorem decode16_eq_decodeC0 (ho : op p = 0#2) : decode16 p = decodeC0 p := by simp only [decode16, ho]
theorem decode16_eq_decodeC1 (ho : op p = 1#2) : decode16 p = decodeC1 p := by simp only [decode16, ho]
theorem decode16_eq_decodeC2 (ho : op p = 2#2) : decode16 p = decodeC2 p := by simp only [decode16, ho]
theorem decodeC1_eq_decodeCArith (h3 : cFunct3 p = 4#3) : decodeC1 p = decodeCArith p := by simp only [decodeC1, h3]

/-- C.ADDI4SPN by zero, the all-zero parcel among them. -/
theorem decodeC0_addi4spn_zero (h3 : cFunct3 p = 0#3) (hi : immCIW p = 0#8) :
    decodeC0 p = .error .reservedCompressed := by
  simp only [decodeC0, h3, if_pos hi]

theorem decodeC0_funct3_four (h3 : cFunct3 p = 4#3) : decodeC0 p = .error .reservedCompressed := by
  simp [decodeC0, h3]

/-- C.ADDI16SP and C.LUI by zero. -/
theorem decodeC1_upper_zero (h3 : cFunct3 p = 3#3) (hi : immCI p = 0#6) (hsp : immCI16SP p = 0#6) :
    decodeC1 p = .error .reservedCompressed := by
  simp only [decodeC1, h3, if_pos hi, if_pos hsp, ite_self]

/-- Bit 12 is reserved in the arithmetic group, but for C.ANDI. -/
theorem decodeCArith_bit12 (hb : cBit12 p = 1#1) (h2 : cFunct2 p ≠ 2#2) :
    decodeCArith p = .error .reservedCompressed := by
  have hb : cBit12 p ≠ 0#1 := by rw [hb]; decide
  unfold decodeCArith
  split
  case h_1 => exact if_neg hb
  case h_2 => exact if_neg hb
  case h_3 h => exact absurd h h2
  case h_4 => exact if_neg hb

theorem decodeC2_slli_bit12 (h3 : cFunct3 p = 0#3) (hb : cBit12 p = 1#1) :
    decodeC2 p = .error .reservedCompressed := by
  have hb : cBit12 p ≠ 0#1 := by rw [hb]; decide
  simp only [decodeC2, h3, if_neg hb]

theorem decodeC2_lwsp_x0 (h3 : cFunct3 p = 2#3) (hr : cRd p = 0#5) : decodeC2 p = .error .reservedCompressed := by
  simp only [decodeC2, h3, if_pos hr]

theorem decodeC2_jr_x0 (h3 : cFunct3 p = 4#3) (hb : cBit12 p = 0#1) (hr : cRd p = 0#5) (hl : cRs2 p = 0#5) :
    decodeC2 p = .error .reservedCompressed := by
  simp only [decodeC2, h3, if_pos hb, if_pos hl, if_pos hr]

/-- Settles O6: each clause is one reserved form of its quadrant. -/
theorem reservedParcelsRejected : Obligations.ReservedParcelsRejected := by
  intro p _ _ _ _ _ h
  rcases h with ⟨ho, h3, hi⟩ | ⟨ho, h3⟩ | ⟨ho, h3, hb, hl⟩ | ⟨ho, h3, hb, h2⟩ | ⟨ho, h3, hb⟩ | ⟨ho, h3, hr⟩ |
    ⟨ho, h3, hb, hr, hl⟩
  · rw [decode16_eq_decodeC0 ho, decodeC0_addi4spn_zero h3 (immCIW_of_zero hi)]
  · rw [decode16_eq_decodeC0 ho, decodeC0_funct3_four h3]
  · rw [decode16_eq_decodeC1 ho, decodeC1_upper_zero h3 (immCI_of_zero hb hl) (immCI16SP_of_zero hb hl)]
  · rw [decode16_eq_decodeC1 ho, decodeC1_eq_decodeCArith h3, decodeCArith_bit12 hb h2]
  · rw [decode16_eq_decodeC2 ho, decodeC2_slli_bit12 h3 hb]
  · rw [decode16_eq_decodeC2 ho, decodeC2_lwsp_x0 h3 hr]
  · rw [decode16_eq_decodeC2 ho, decodeC2_jr_x0 h3 hb hr hl]

end Sys2Proof
end

section
/-! SUPPORT. The compressed instructions on integer registers; and every compressed instruction that is no jump or
branch as the attempt of its expansion, finished with its own length (48_compressed.md R602 to R639). -/
namespace Sys2Proof.Machine

variable {s : State}

/-! ### The immediates of expansions -/

section
variable {w : Nat}

/-- Sign-extending in two steps. -/
theorem sext_signExtend {m : Nat} (hm : w ≤ m) (v : BitVec w) : sext (v.signExtend m) = sext v := by
  rw [sext_eq_ofInt, BitVec.toInt_signExtend_of_le hm, sext_eq_ofInt]

/-- A scaled unsigned offset fits below the sign bit of imm_I and imm_S. -/
theorem sext_ofNat_scaled (j : Nat) (hj : w + j ≤ 11) (v : BitVec w) :
    sext (BitVec.ofNat 12 (2 ^ j * v.toNat)) = zext (scaled j v) := by
  have hlt : 2 ^ j * v.toNat < 2 ^ 11 :=
    calc 2 ^ j * v.toNat
      _ < 2 ^ j * 2 ^ w := Nat.mul_lt_mul_of_pos_left v.isLt (Nat.two_pow_pos j)
      _ = 2 ^ (w + j) := by rw [← Nat.pow_add, Nat.add_comm]
      _ ≤ 2 ^ 11 := Nat.pow_le_pow_right Nat.two_pos hj
  have hnat : (BitVec.ofNat 12 (2 ^ j * v.toNat)).toNat = 2 ^ j * v.toNat := by
    rw [BitVec.toNat_ofNat, Nat.mod_eq_of_lt (by omega)]
  rw [sext_eq_ofInt, BitVec.toInt_eq_toNat_of_lt (by omega), hnat, BitVec.ofInt_natCast, zext_scaled]

/-- The offset of C.ADDI16SP fits imm_I (R616). -/
theorem sext_ofInt_scaled (v : BitVec 6) : sext (BitVec.ofInt 12 (16 * v.toInt)) = sext (scaled 4 v) := by
  have hlo := v.le_toInt
  have hhi := v.toInt_lt
  rw [sext_scaled, sext_eq_ofInt, BitVec.toInt_ofInt_eq_self (by decide) (by omega) (by omega)]
  rfl

/-- C.LUI's value in the numbers of its rule (R617). -/
theorem immU_immCLui (v : BitVec 6) : immU (immCLui v) = BitVec.ofInt 32 (4096 * v.toInt) :=
  calc immU (immCLui v)
    _ = sext (scaled 12 (v.signExtend 20)) := (BitVec.signExtend_eq _).symm
    _ = BitVec.ofInt 32 (4096 * v.toInt) := by
      rw [sext_scaled, BitVec.toInt_signExtend_of_le (by decide)]
      rfl

end

/-! ### The compressed instructions on integer registers -/

/-- What is written to x0 does not matter (R41). -/
theorem Retires.x_zero_any {t : State} {pc v v' : Word} {f : Option (FReg × BitVec 128)} {fcsr : BitVec 8}
    (h : Retires s t pc (some (0#5, v)) f fcsr) : Retires s t pc (some (0#5, v')) f fcsr :=
  ⟨h.outcome, h.pc, fun r => by simpa using h.x r, h.f, h.fcsr, h.cfg, h.schedule⟩

/-- C.NOP writes x0 only (R612). -/
theorem cNop_next (imm : BitVec 6) (v : Word) :
    ∃ t, exec (.cNop imm) s = .next t ∧ Retires s t (s.cpu.pc + 2#32) (some (0#5, v)) none s.cpu.fcsr ∧
      s.env.Asked t.env [] := by
  obtain ⟨t, ht, hr, hq⟩ := writeReg_next (s := s) (len := 2) (out := exec (.cNop imm) s) rfl rfl
  exact ⟨t, ht, hr.x_zero_any, hq⟩

/-- Settles O13: each is `writeReg` of its rule's value. -/
theorem compressedArithmetic : Obligations.CompressedArithmetic := by
  intro s rd rs2 d r imm imm8 shamt a b c sp p hp
  have hb : s.cpu.readX (creg d) = b := congrArg s.cpu.readX (creg_eq_cfield d)
  have hc : s.cpu.readX (creg r) = c := congrArg s.cpu.readX (creg_eq_cfield r)
  have h0 : s.cpu.readX 0#5 = 0#32 := s.cpu.readX_zero
  simp only [List.mem_cons, List.not_mem_nil, or_false, ← creg_eq_cfield d] at hp
  rcases hp with rfl | rfl | rfl | rfl | rfl | rfl | rfl | rfl | rfl | rfl | rfl | rfl | rfl | rfl | rfl | rfl
  · exact writeReg_next rfl (congrArg (sp + ·) (zext_scaled 2 imm8))
  · exact cNop_next imm 0#32
  · exact writeReg_next rfl rfl
  · exact writeReg_next rfl (by rw [h0, BitVec.zero_add, sext_eq_ofInt])
  · exact writeReg_next rfl (congrArg (sp + ·) (sext_scaled 4 imm))
  · exact writeReg_next rfl (immU_immCLui imm)
  · exact writeReg_next rfl (hb ▸ ushiftRight_eq_ofNat _ _)
  · exact writeReg_next rfl (hb ▸ sshiftRight_eq_ofInt _ _)
  · exact writeReg_next rfl (congrArg (· &&& sext imm) hb)
  · exact writeReg_next rfl (by rw [hb, hc])
  · exact writeReg_next rfl (by rw [hb, hc])
  · exact writeReg_next rfl (by rw [hb, hc])
  · exact writeReg_next rfl (by rw [hb, hc])
  · exact writeReg_next rfl (shiftLeft_eq_ofNat a _)
  · exact writeReg_next rfl (by rw [h0, BitVec.zero_add])
  · exact writeReg_next rfl rfl

/-! ### One attempt, finished at two lengths -/

/-- `c` and `e` are one attempt, finished as an instruction of two and of four bytes; it schedules no target. -/
def SameAttempt (s : State) (c e : Host.Outcome State Fault Refusal) : Prop :=
  ∃ a : Attempt Writes, c = finish 2 a s ∧ e = finish 4 a s ∧ ∀ w env, a = .ok w env → w.pc = none

/-- The two ends differ in the pc only: a commit advances it by the length, a trap keeps it (R708, R709). -/
theorem SameAttempt.next {c e : Host.Outcome State Fault Refusal} (h : SameAttempt s c e) :
    ∃ t u, c = .next t ∧ e = .next u ∧
      t = { u with cpu := { u.cpu with pc := if u.outcome = some .advanced then s.cpu.pc + 2#32 else s.cpu.pc } } := by
  obtain ⟨a, rfl, rfl, hpc⟩ := h
  cases a with
  | ok w env =>
    refine ⟨_, _, rfl, rfl, ?_⟩
    rw [commit_outcome, if_pos rfl, commit, Cpu.apply, hpc w env rfl]
    rfl
  | trap tr env =>
    refine ⟨_, _, rfl, rfl, ?_⟩
    rw [if_neg (deliver_not_advanced tr _)]
    rfl

/-! ### The shapes -/

/-- An attempt that ends in writes without a target. -/
theorem sameAttempt_andThen {α : Type} {m : Attempt α} {k : α → Writes} (hk : ∀ v, (k v).pc = none) :
    SameAttempt s (finish 2 (m.andThen fun v env => .ok (k v) env) s)
      (finish 4 (m.andThen fun v env => .ok (k v) env) s) := by
  refine ⟨_, rfl, rfl, fun w env h => ?_⟩
  obtain ⟨v, env', -, h⟩ := Attempt.andThen_eq_ok h
  cases h
  exact hk v

theorem writeReg_sameAttempt {rd : XReg} {v v' : Word} (hv : v = v') :
    SameAttempt s (writeReg 2 rd v s) (writeReg 4 rd v' s) :=
  hv ▸ ⟨.ok { x := some (rd, v) } s.env, rfl, rfl, fun _ _ h => by cases h; rfl⟩

theorem raise_sameAttempt (cause : Cause) (info : Word) :
    SameAttempt s (finish 2 (raise cause info s.env) s) (finish 4 (raise cause info s.env) s) :=
  ⟨raise cause info s.env, rfl, rfl, fun _ _ h => by cases h⟩

section
variable {imm imm' : Word} (hi : imm = imm')
include hi

theorem loadX_sameAttempt {sz : Size} {ext : BitVec 128 → Word} {rd rs1 : XReg} :
    SameAttempt s (loadX 2 sz ext rd rs1 imm s) (loadX 4 sz ext rd rs1 imm' s) :=
  hi ▸ sameAttempt_andThen fun _ => rfl

theorem storeX_sameAttempt {sz : Size} {rs2 rs1 : XReg} :
    SameAttempt s (storeX 2 sz rs2 rs1 imm s) (storeX 4 sz rs2 rs1 imm' s) :=
  hi ▸ sameAttempt_andThen fun _ => rfl

theorem loadF_sameAttempt {fmt : Fmt} {rd : FReg} {rs1 : XReg} :
    SameAttempt s (loadF 2 fmt rd rs1 imm s) (loadF 4 fmt rd rs1 imm' s) :=
  hi ▸ sameAttempt_andThen fun _ => rfl

theorem storeF_sameAttempt {fmt : Fmt} {rs2 : FReg} {rs1 : XReg} :
    SameAttempt s (storeF 2 fmt rs2 rs1 imm s) (storeF 4 fmt rs2 rs1 imm' s) :=
  hi ▸ sameAttempt_andThen fun _ => rfl

end

/-! ### The instructions -/

/-- An instruction that is no jump or branch is the attempt of its expansion, whose operands are the registers and the
immediate the expansion names. -/
theorem exec_expansion_sameAttempt (s : State) {c e : Instr} (h : expansion c = some e)
    (hj : ∀ off rs1 rs2 o8, c ≠ .cJal off ∧ c ≠ .cJ off ∧ c ≠ .cJr rs1 ∧ c ≠ .cJalr rs1 ∧ c ≠ .cBeqz rs2 o8 ∧
      c ≠ .cBnez rs2 o8) : SameAttempt s (exec c s) (exec e s) := by
  cases c with
  | cJal off => obtain ⟨hne, -⟩ := hj off 0 0 0; exact absurd rfl hne
  | cJ off => obtain ⟨-, hne, -⟩ := hj off 0 0 0; exact absurd rfl hne
  | cJr rs1 => obtain ⟨-, -, hne, -⟩ := hj 0 rs1 0 0; exact absurd rfl hne
  | cJalr rs1 => obtain ⟨-, -, -, hne, -⟩ := hj 0 rs1 0 0; exact absurd rfl hne
  | cBeqz rs1 off => obtain ⟨-, -, -, -, hne, -⟩ := hj 0 0 rs1 off; exact absurd rfl hne
  | cBnez rs1 off => obtain ⟨-, -, -, -, -, hne⟩ := hj 0 0 rs1 off; exact absurd rfl hne
  | cNop | cAddi | cLi =>
    cases h
    exact writeReg_sameAttempt (congrArg (_ + ·) (sext_signExtend (by decide) _).symm)
  | cLui | cSlli | cMv | cAdd => cases h; exact writeReg_sameAttempt rfl
  | cAddi4spn =>
    cases h
    rw [← creg_eq_cfield]
    exact writeReg_sameAttempt (congrArg (_ + ·) (sext_ofNat_scaled 2 (by decide) _).symm)
  | cAddi16sp => cases h; exact writeReg_sameAttempt (congrArg (_ + ·) (sext_ofInt_scaled _).symm)
  | cSrli | cSrai => cases h; rw [← creg_eq_cfield]; exact writeReg_sameAttempt rfl
  | cAndi =>
    cases h
    rw [← creg_eq_cfield]
    exact writeReg_sameAttempt (congrArg (_ &&& ·) (sext_signExtend (by decide) _).symm)
  | cSub | cXor | cOr | cAnd =>
    cases h
    simp only [← creg_eq_cfield]
    exact writeReg_sameAttempt rfl
  | cLw =>
    cases h
    simp only [← creg_eq_cfield]
    exact loadX_sameAttempt (sext_ofNat_scaled 2 (by decide) _).symm
  | cLwsp => cases h; exact loadX_sameAttempt (sext_ofNat_scaled 2 (by decide) _).symm
  | cSw =>
    cases h
    simp only [← creg_eq_cfield]
    exact storeX_sameAttempt (sext_ofNat_scaled 2 (by decide) _).symm
  | cSwsp => cases h; exact storeX_sameAttempt (sext_ofNat_scaled 2 (by decide) _).symm
  | cFlw =>
    cases h
    simp only [← creg_eq_cfield]
    exact loadF_sameAttempt (fmt := .s) (sext_ofNat_scaled 2 (by decide) _).symm
  | cFlwsp => cases h; exact loadF_sameAttempt (fmt := .s) (sext_ofNat_scaled 2 (by decide) _).symm
  | cFld =>
    cases h
    simp only [← creg_eq_cfield]
    exact loadF_sameAttempt (fmt := .d) (sext_ofNat_scaled 3 (by decide) _).symm
  | cFldsp => cases h; exact loadF_sameAttempt (fmt := .d) (sext_ofNat_scaled 3 (by decide) _).symm
  | cFsw =>
    cases h
    simp only [← creg_eq_cfield]
    exact storeF_sameAttempt (fmt := .s) (sext_ofNat_scaled 2 (by decide) _).symm
  | cFswsp => cases h; exact storeF_sameAttempt (fmt := .s) (sext_ofNat_scaled 2 (by decide) _).symm
  | cFsd =>
    cases h
    simp only [← creg_eq_cfield]
    exact storeF_sameAttempt (fmt := .d) (sext_ofNat_scaled 3 (by decide) _).symm
  | cFsdsp => cases h; exact storeF_sameAttempt (fmt := .d) (sext_ofNat_scaled 3 (by decide) _).symm
  | cEbreak => cases h; exact raise_sameAttempt _ _
  | _ => cases h

/-- Settles O14: the two are one attempt (`exec_expansion_sameAttempt`), finished at two lengths. -/
theorem compressedExpands : Obligations.CompressedExpands := fun s _ _ h hj =>
  (exec_expansion_sameAttempt s h hj).next

end Sys2Proof.Machine
end

section
/-! SUPPORT. How a step ends, and what it was charged: one outcome, `Trap` last or never, `Charge(Fetch)` first and one
category's charge at most (R700 to R702, R706, R709, R710). -/
namespace Sys2Proof.Machine

variable {s t : State} {i : Instr} {e e' : Env} {o : Option Nat}

/-- The record of requests is empty when a step begins. -/
@[simp] theorem beginStep_requests (s : State) : (beginStep s).env.requests = [] := rfl

/-! ### The outcome, and `Trap` -/

/-- A delivered trap is the outcome's, whichever the environment's answer (R700, R710). -/
theorem deliver_traps (tr : Trap) (s : State) :
    (deliver tr s).outcome = some (.trapped tr) ∨ (deliver tr s).outcome = some (.halted tr) := by
  rw [deliver_outcome]
  cases s.env.trapAnswer with
  | continues => exact .inl rfl
  | halts => exact .inr rfl

/-- Settles O47: the attempt a step is (`step_runs`) commits or delivers a trap. -/
theorem stepHasOneOutcome : Obligations.StepHasOneOutcome := by
  intro s
  obtain ⟨len, a, hs, -⟩ := step_runs s
  cases a with
  | ok w e => exact ⟨_, hs, .inl rfl⟩
  | trap tr e => exact ⟨_, hs, .inr ⟨tr, deliver_traps tr _⟩⟩

/-- No request of a step before its end is `Trap`. -/
theorem ne_trap_of_reach (h : Env.Reach Request.beforeTrap (beginStep s).env o e) :
    ∀ q ∈ e.requests, ∀ tr, q ≠ .trap tr := by
  obtain ⟨l, hl, hp, -⟩ := h.requests
  rw [hl, beginStep_requests, List.nil_append]
  rintro q hq tr rfl
  cases hp _ hq

/-- Settles O48: a commit is no trap and follows no `Trap`; a delivery changes no register and makes the one `Trap`. -/
theorem trapLeavesTheCore : Obligations.TrapLeavesTheCore := by
  intro s t h
  rcases step_commits_or_delivers h with ⟨i, w, e, rfl, hreach, -⟩ | ⟨tr, e, rfl, hreach⟩
  · exact ⟨fun tr htr => by simp at htr, fun _ => ne_trap_of_reach hreach⟩
  · refine ⟨fun tr' htr => ?_, fun hadv => absurd hadv (deliver_not_advanced _ _)⟩
    obtain rfl : tr = tr' := by
      rcases deliver_traps tr { beginStep s with env := e } with ho | ho <;> rw [ho] at htr <;> simpa using htr
    exact ⟨rfl, e.requests, rfl, ne_trap_of_reach hreach⟩

/-! ### The charges -/

/-- The category a request charges, if it is a charge (R17). -/
def Request.charged : Request → Option Category
  | .charge c => some c
  | .readWord _ | .writeWord _ _ _ | .loadReserved _ | .storeReserved _ _ | .csrRead _ _ | .csrWrite _ _ _
  | .sqrtMode _ | .trap _ => none

/-- A request that is no charge. -/
def Request.uncharged (q : Request) : Bool := q.charged.isNone

theorem Request.uncharged_of_ofInstr {q : Request} (h : q.ofInstr = true) : q.uncharged = true := by
  cases q with
  | charge => cases h
  | readWord | writeWord | loadReserved | storeReserved | csrRead | csrWrite | sqrtMode | trap => rfl

/-- The categories charged in a list of requests, in order. -/
def charges (l : List Request) : List Category := l.filterMap Request.charged

@[simp] theorem charges_append (l l' : List Request) : charges (l ++ l') = charges l ++ charges l' :=
  List.filterMap_append

@[simp] theorem charges_charge (c : Category) : charges [.charge c] = [c] := rfl

@[simp] theorem charges_trap (tr : Trap) : charges [.trap tr] = [] := rfl

theorem mem_charges {l : List Request} {c : Category} : c ∈ charges l ↔ .charge c ∈ l := by
  refine List.mem_filterMap.trans ⟨fun ⟨q, hq, hc⟩ => ?_, fun h => ⟨_, h, rfl⟩⟩
  cases q with
  | charge => cases hc; exact hq
  | readWord | writeWord | loadReserved | storeReserved | csrRead | csrWrite | sqrtMode | trap => cases hc

/-- The charges of a list are as many as its requests that a test for a charge lets through. -/
theorem length_filter_charge {p : Request → Bool} (hp : ∀ q, p q = q.charged.isSome) (l : List Request) :
    (l.filter p).length = (charges l).length := by
  rw [charges, List.length_filterMap_eq_countP, ← List.countP_eq_length_filter, funext hp]

/-- Requests none of which is a charge. -/
theorem Env.Reach.uncharged (h : Env.Reach Request.uncharged e o e') :
    ∃ l, e'.requests = e.requests ++ l ∧ charges l = [] := by
  obtain ⟨l, hl, hp, -⟩ := h.requests
  exact ⟨l, hl, List.filterMap_eq_nil_iff.2 fun q hq => Option.isNone_iff_eq_none.1 (hp q hq)⟩

/-! ### The front end -/

/-- Lines 2 to 5 of the step sequence, between the two charges (R701): the instruction, or the trap. -/
def fetchAndDecode (s : State) (e : Env) : Attempt Instr :=
  if pcAligned s.cfg s.env.gates s.cpu.pc then
    (fetchBits s.cpu.pc e).andThen fun b e => decodeOrRaise s.cfg s.env.gates b.1 b.2 e
  else raise .instructionAddressMisaligned s.cpu.pc e

theorem Attempt.andThen_assoc {α β γ : Type} (a : Attempt α) (k : α → Env → Attempt β)
    (k' : β → Env → Attempt γ) :
    (a.andThen k).andThen k' = a.andThen fun v e => (k v e).andThen k' := by
  cases a <;> rfl

/-- The front end is a charge, the fetch and decode, and a charge. -/
theorem frontEnd_eq (s : State) : frontEnd s =
    (charge .fetch s.env).andThen fun _ e => (fetchAndDecode s e).andThen fun i e =>
      (charge (.instr (Config.costCategory i)) e).andThen fun _ e => .ok i e := by
  refine congrArg _ (funext fun _ => funext fun e => ?_)
  unfold fetchAndDecode
  split
  · rw [Attempt.andThen_assoc]
  · rfl

theorem fetchParcel_uncharged (a : Word) (e : Env) : (fetchParcel a e).Reaches Request.uncharged e :=
  (readWord_reaches _ _ rfl).andThen fun _ _ => Env.Reach.refl

theorem fetchBits_uncharged (pc : Word) (e : Env) : (fetchBits pc e).Reaches Request.uncharged e := by
  refine (fetchParcel_uncharged pc e).andThen fun p0 e => ?_
  split
  · exact (fetchParcel_uncharged _ _).andThen fun _ _ => Env.Reach.refl
  · exact Env.Reach.refl

/-- Between its charges the front end makes none. -/
theorem fetchAndDecode_uncharged (s : State) (e : Env) : (fetchAndDecode s e).Reaches Request.uncharged e := by
  unfold fetchAndDecode
  split
  · exact (fetchBits_uncharged _ _).andThen fun _ _ => decodeOrRaise_reaches _ _ _ _ _
  · exact raise_reaches _ _ _

/-- A charge is logged, answered or refused. -/
theorem charge_cases (c : Category) (e : Env) :
    (∃ n, charge c e = .trap (.env n) (e.issue (.charge c))) ∨ charge c e = .ok () (e.issue (.charge c)) := by
  rcases request_cases (.charge c) (fun _ e => .ok () e) e with ⟨n, -, h⟩ | ⟨-, h⟩
  · exact .inl ⟨n, h⟩
  · exact .inr h

/-- The front end charges its fetch first, and then some instruction's category or, where it traps, perhaps nothing. -/
theorem frontEnd_charges (s : State) : ∃ l, (frontEnd s).env.requests = s.env.requests ++ .charge .fetch :: l ∧
    ((∃ tr e, frontEnd s = .trap tr e) ∧ charges l = [] ∨
      ∃ i, charges l = [.instr (Config.costCategory i)]) := by
  rw [frontEnd_eq]
  rcases charge_cases .fetch s.env with ⟨n, hfetch⟩ | hfetch
  · rw [hfetch]
    exact ⟨[], rfl, .inl ⟨⟨_, _, rfl⟩, rfl⟩⟩
  rw [hfetch, Attempt.andThen_ok]
  obtain ⟨l, hl, hcl⟩ := (fetchAndDecode_uncharged s (s.env.issue (.charge .fetch))).reach.uncharged
  cases hd : fetchAndDecode s (s.env.issue (.charge .fetch)) with
  | trap tr e =>
    rw [hd] at hl
    exact ⟨l, by simpa using hl, .inl ⟨⟨_, _, rfl⟩, hcl⟩⟩
  | ok i e =>
    rw [hd] at hl
    refine ⟨l ++ [.charge (.instr (Config.costCategory i))], ?_, .inr ⟨i, by simp [hcl]⟩⟩
    have hl : e.requests = s.env.requests ++ [.charge .fetch] ++ l := hl
    rcases charge_cases (.instr (Config.costCategory i)) e with ⟨n, hcat⟩ | hcat <;>
      simp [hcat, Attempt.env, hl]

/-- The front end's trap is the step's. -/
theorem step_of_frontEnd_trap {tr : Trap} (h : frontEnd (beginStep s) = .trap tr e) :
    step s = .next (deliver tr { beginStep s with env := e }) := by
  rw [step, stepFrom, h]

/-- The front end's instruction is executed. -/
theorem step_of_frontEnd_ok (h : frontEnd (beginStep s) = .ok i e) :
    step s = exec i { beginStep s with env := e } := by
  rw [step, stepFrom, h]

/-- After the front end a step charges nothing, and it retires only an instruction that the front end gave. -/
theorem step_after_frontEnd (h : step s = .next t) :
    ∃ l, t.env.requests = (frontEnd (beginStep s)).env.requests ++ l ∧ charges l = [] ∧
      ((∃ tr e, frontEnd (beginStep s) = .trap tr e) → t.outcome ≠ some .advanced) := by
  cases hf : frontEnd (beginStep s) with
  | trap tr e =>
    rw [step_of_frontEnd_trap hf] at h
    cases h
    exact ⟨[.trap tr], rfl, rfl, fun _ => deliver_not_advanced _ _⟩
  | ok i e =>
    obtain ⟨a, ha, hreach, -⟩ := exec_runs i { beginStep s with env := e }
    obtain ⟨l, hl, hcl⟩ := (hreach.mono fun _ => Request.uncharged_of_ofInstr).reach.uncharged
    have hl : a.env.requests = e.requests ++ l := hl
    rw [step_of_frontEnd_ok hf, ha] at h
    cases a with
    | ok w e' => cases h; exact ⟨l, hl, hcl, fun ⟨_, _, hnot⟩ => by cases hnot⟩
    | trap tr e' =>
      cases h
      refine ⟨l ++ [.trap tr], ?_, by simp [hcl], fun ⟨_, _, hnot⟩ => by cases hnot⟩
      rw [deliver_env, Env.issue_requests, ← List.append_assoc]
      exact congrArg (· ++ [Request.trap tr]) hl

/-- The requests of a step begin with `Charge(Fetch)`; of the later ones at most one is a charge, of an instruction's
category, and one is if the step retired (R702, R706). -/
theorem step_charges (h : step s = .next t) : ∃ l, t.env.requests = .charge .fetch :: l ∧
    (t.outcome ≠ some .advanced ∧ charges l = [] ∨ ∃ i, charges l = [.instr (Config.costCategory i)]) := by
  obtain ⟨l, hl, hfront⟩ := frontEnd_charges (beginStep s)
  obtain ⟨l', hl', hcl', hout⟩ := step_after_frontEnd h
  refine ⟨l ++ l', by simp [hl', hl], ?_⟩
  rw [charges_append, hcl', List.append_nil]
  exact hfront.imp_left fun ⟨htrap, hcl⟩ => ⟨hout htrap, hcl⟩

/-- Settles O49: the charges are those of `step_charges`, and a refused first one stops the front end (`step_stops`). -/
theorem chargesOfAStep : Obligations.ChargesOfAStep := by
  intro s t h
  refine ⟨?_, fun n hr => ?_⟩
  · obtain ⟨l, hl, hcl⟩ := step_charges h
    refine ⟨l, hl, ?_, ?_, fun hadv => ?_⟩
    · rintro q hq rfl
      have hmem := mem_charges.2 hq
      rcases hcl with ⟨-, hcl⟩ | ⟨i, hcl⟩ <;> simp [hcl] at hmem
    · rw [length_filter_charge (fun q => by cases q <;> rfl)]
      rcases hcl with ⟨-, hcl⟩ | ⟨i, hcl⟩ <;> simp [hcl]
    · rcases hcl with ⟨hne, -⟩ | ⟨i, hcl⟩
      · exact absurd hadv hne
      · exact ⟨i, mem_charges.1 (by simp [hcl])⟩
  · have hstop : (frontEnd (beginStep s)).Stops (beginStep s).env n [.charge .fetch] := (request_stops hr).andThen
    obtain ⟨t', ht', -, hcpu, hreq⟩ := step_stops hstop
    obtain rfl : t' = t := by rw [ht'] at h; cases h; rfl
    exact ⟨hreq, hcpu⟩

end Sys2Proof.Machine
end

section
/-! SUPPORT. The step where its front end's way is known: a pc that cannot be fetched from, an encoding that is fetched
and rejected, and an instruction that is fetched and then charged for (R701, R703 to R707, R714). -/
namespace Sys2Proof.Machine

variable {s : State} {i : Instr} {e : Env}

/-! ### Traps of the front end -/

theorem pcAligned_eq_false {cfg : Config} {g : Gates} {pc : Word}
    (h : pc.getLsbD 0 = true ∨ pc.getLsbD 1 = true ∧ (cfg.cImplemented = false ∨ g.c = false)) :
    pcAligned cfg g pc = false := by
  unfold pcAligned cEnabled
  rcases h with h0 | ⟨h1, hc | hc⟩
  · simp [h0]
  · simp [h1, hc]
  · simp [h1, hc]

/-- A pc that cannot be fetched from raises right after the first charge (R703). -/
theorem frontEnd_misaligned (ha : pcAligned s.cfg s.env.gates s.cpu.pc = false) (hn : s.env.noTrapIn 1) :
    frontEnd s = .trap (.core .instructionAddressMisaligned s.cpu.pc) (s.env.issue (.charge .fetch)) := by
  rw [frontEnd, charge, request_of_noTrap hn, Attempt.andThen_ok, ha]
  rfl

/-- Settles O52: the front end raises before it fetches (`frontEnd_misaligned`). -/
theorem misalignedFetchTraps : Obligations.MisalignedFetchTraps := fun _ hpc hn =>
  ⟨_, _, step_of_frontEnd_trap (frontEnd_misaligned (pcAligned_eq_false hpc) hn), Env.asked_issue _ _,
    delivers_deliver _ _⟩

/-- An encoding that is fetched and rejected raises with its bits, before a category is charged (R705). -/
theorem frontEnd_rejected {c : Encoded} {r : Reject} (hc : c.len = 4 ↔ c.bits.extractLsb' 0 2 = 0b11#2)
    (hf : Fetches s c.bytes) (hd : decodeStep s.cfg s.env.gates c.bits c.len = .error r) :
    frontEnd s =
      .trap (.core .illegalInstruction c.bits) (s.env.afterAsking (fetchRequests s.cpu.pc c.len)) := by
  rw [frontEnd_of_fetches hc hf, decodeOrRaise, hd]
  rfl

/-- Settles O53: the front end raises with the fetched bits (`frontEnd_rejected`). -/
theorem illegalEncodingTraps : Obligations.IllegalEncodingTraps := fun _ _ _ hc hf hd =>
  ⟨_, _, step_of_frontEnd_trap (frontEnd_rejected hc hf hd), Env.asked_afterAsking _ _, delivers_deliver _ _⟩

/-! ### An instruction at the pc -/

/-- Bits [1:0] of a well-formed instruction say its length (R120). -/
theorem len_eq_four_iff (h : i.wf = true) : i.len = 4 ↔ i.bits.extractLsb' 0 2 = 0b11#2 := by
  have hd := decode_encoded i h
  cases hc : i.encoded with
  | half p =>
    rw [hc] at hd
    exact (Laws.EncodedLength.of_half hc (op_of_decode16 hd)).2.symm
  | word w =>
    rw [hc] at hd
    exact (Laws.EncodedLength.of_word hc (opcode_ends_in_11 hd)).2.symm

/-- The step's decoder reads an encoding as the encoding decodes. -/
theorem decode_bits_of_len (c : Encoded) :
    (if c.len = 4 then decode32 c.bits else decode16 (c.bits.setWidth 16)) = c.decode := by
  cases c with
  | half p => simp [Encoded.len, Encoded.bits, Encoded.decode]
  | word w => rfl

/-- The step decodes a well-formed instruction that is enabled from its own bits (R705). -/
theorem decodeStep_bits {cfg : Config} {g : Gates} (h : i.wf = true) (he : i.enabled cfg g = true) :
    decodeStep cfg g i.bits i.len = .ok i :=
  (decodeStep_eq_ok i.bits i.len).2 ⟨(decode_bits_of_len i.encoded).trans (decode_encoded i h), he⟩

/-- With its bytes at the pc, only the charge of the instruction's category is left (R701 line 6). -/
theorem frontEnd_of_encode (hwf : i.wf = true) (he : i.enabled s.cfg s.env.gates = true) (hf : Fetches s (encode i)) :
    frontEnd s =
      (charge (.instr (Config.costCategory i)) (s.env.afterAsking (fetchRequests s.cpu.pc i.len))).andThen
        fun _ e => .ok i e := by
  have hd : decodeStep s.cfg s.env.gates i.encoded.bits i.encoded.len = .ok i := decodeStep_bits hwf he
  rw [frontEnd_of_fetches (len_eq_four_iff hwf) hf, decodeOrRaise, hd]
  rfl

/-- The requests of the instruction's fetch, the first charge among them. -/
theorem length_fetchRequests_len (pc : Word) (i : Instr) : (fetchRequests pc i.len).length = i.len / 2 + 1 :=
  length_fetchRequests pc i.encoded

/-- That charge meets the answer behind those of the fetch. -/
theorem nextReply_after_fetch (e : Env) (pc : Word) (i : Instr) :
    (e.afterAsking (fetchRequests pc i.len)).nextReply = e.reply (i.len / 2 + 1) := by
  rw [Env.nextReply_eq_reply, Env.reply_afterAsking, length_fetchRequests_len, Nat.add_zero]

/-- Settles O51: the charge of the category is refused where the front end would end (`frontEnd_of_encode`). -/
theorem budgetTrapsBeforeExecution : Obligations.BudgetTrapsBeforeExecution := by
  intro s i n b hwf he hf hr
  have hfront := frontEnd_of_encode hwf he hf
  rw [charge, request_envTrap ((nextReply_after_fetch _ _ _).trans hr), Attempt.andThen_trap] at hfront
  refine ⟨_, step_of_frontEnd_trap hfront, rfl, ?_, deliver_traps _ _⟩
  have hasked := ((Env.asked_afterAsking b.env (fetchRequests b.cpu.pc i.len)).issue
    (.charge (.instr (Config.costCategory i)))).issue (.trap (.env n))
  rwa [List.append_assoc] at hasked

/-- Settles O50: the charge of the category is answered, and the instruction is executed behind it
(`frontEnd_of_encode`). -/
theorem stepRunsDecoded : Obligations.StepRunsDecoded := by
  intro s i b hwf he hf hr
  have hfront := frontEnd_of_encode hwf he hf
  rw [charge, request_ok fun n => nextReply_after_fetch b.env b.cpu.pc i ▸ hr n, Attempt.andThen_ok] at hfront
  rw [step_of_frontEnd_ok hfront, ← Env.afterAsking_nil (Env.issue _ _), Env.issue_afterAsking,
    Env.afterAsking_afterAsking]
  unfold Env.afterAsking
  rw [List.length_append, length_fetchRequests_len]
  rfl

end Sys2Proof.Machine
end

section
/-! SUPPORT. The state at instantiation: empty stores, no reservation and zeros in the f registers meet the invariant
(70_reset_and_hazards.md R800, R801). -/
namespace Sys2Proof.Machine

theorem CsrFile.wf_nil : CsrFile.wf [] := ⟨List.Pairwise.nil, by simp⟩

theorem Env.wf_reset : Env.reset.Wf where
  mem := Memory.wf_nil
  csrs := CsrFile.wf_nil
  reservation _ hr := by cases hr

/-- The registers at instantiation hold values of any FLEN: zero has no bit above it (R49). -/
theorem Cpu.wf_reset (flen : Flen) : Cpu.reset.wf flen := by
  intro i
  have hzero : Cpu.reset.f[i] = 0#128 := Vector.getElem_replicate i.isLt
  rw [hzero, BitVec.zero_and]

/-- Settles O56: the environment's part and the registers' part of the invariant, each at instantiation. -/
theorem resetIsWellFormed : Obligations.ResetIsWellFormed :=
  State.inv_iff.2 ⟨Env.wf_reset, Cpu.wf_reset _⟩

end Sys2Proof.Machine
end
